-- ==== Sys2Proof/Word.lean ====
section
/-! DEFINITION. The word types of the GC2408 (spec/00_scope.md, 1.5) and `Eight`, a fixed store of
eight like things: the lanes, the profile entries and the matchers of a lane are eight each. -/

namespace Sys2Proof

/-- A word of the register window and of host memory: 16 bits. -/
abbrev Word := BitVec 16

/-- A timebase count, or a stamp taken from it: 32 bits (R1, R5). -/
abbrev Stamp := BitVec 32

/-- A byte address on the system bus: 24 bits. -/
abbrev Addr := BitVec 24

/-- A lane number, 0 to 7. -/
abbrev LaneId := Fin 8

/-- A profile table index, 0 to 7 (R45). -/
abbrev ProfileIx := Fin 8

/-- A meter unit number: METER0 or METER1 (R71). -/
abbrev UnitId := Fin 2

/-- Eight like things, numbered 0 to 7. -/
structure Eight (α : Type) where
  x0 : α
  x1 : α
  x2 : α
  x3 : α
  x4 : α
  x5 : α
  x6 : α
  x7 : α
deriving DecidableEq, Repr

/-- The same thing in all eight places. -/
def Eight.fill {α : Type} (a : α) : Eight α := ⟨a, a, a, a, a, a, a, a⟩

/-- The thing at number `i`. -/
def Eight.get {α : Type} (v : Eight α) (i : Fin 8) : α :=
  match i with
  | 0 => v.x0
  | 1 => v.x1
  | 2 => v.x2
  | 3 => v.x3
  | 4 => v.x4
  | 5 => v.x5
  | 6 => v.x6
  | 7 => v.x7

/-- `a` put at number `i`, the others kept. -/
def Eight.set {α : Type} (v : Eight α) (i : Fin 8) (a : α) : Eight α :=
  match i with
  | 0 => { v with x0 := a }
  | 1 => { v with x1 := a }
  | 2 => { v with x2 := a }
  | 3 => { v with x3 := a }
  | 4 => { v with x4 := a }
  | 5 => { v with x5 := a }
  | 6 => { v with x6 := a }
  | 7 => { v with x7 := a }

/-- `f` applied to each of the eight, with its number. -/
def Eight.mapIdx {α β : Type} (f : Fin 8 → α → β) (v : Eight α) : Eight β :=
  ⟨f 0 v.x0, f 1 v.x1, f 2 v.x2, f 3 v.x3, f 4 v.x4, f 5 v.x5, f 6 v.x6, f 7 v.x7⟩

/-- The eight numbers in rising order. -/
def Eight.numbers : List (Fin 8) := [0, 1, 2, 3, 4, 5, 6, 7]

end Sys2Proof
end

