-- ==== Sys2Proof/Syntax.lean ====
section
/-! DEFINITION. The commands of the block: one constructor for each row of spec/opcode_table.json.

The table gives its rows no operands. A command carries what the outside supplies in its happening:
the lane it concerns, the word written, the data of a read cycle. What the state already tells (the
level a pin changes to, the address of a word cycle) is no operand. A window write carries the whole
16-bit word; the fields are picked out of it by Machine/Operands.lean as R182 lays them out. -/

namespace Sys2Proof

/-- The width of a window access (R174): a byte write has no effect anywhere. -/
inductive AccessSize where
  | byte
  | word
deriving DecidableEq, Repr

/-- One command of the block. -/
inductive Instr where
  -- resets and time
  | deviceReset
  | baseTick
  -- the lane front end
  | transition (lane : LaneId)
  | edgeAccepted (lane : LaneId)
  -- limit points of the capture and meter engines
  | waitPointReached (lane : LaneId)
  | gapPointReached (lane : LaneId)
  | markPointReached (lane : LaneId)
  | tlimitExpiry (lane : LaneId)
  | mtimeoutExpiry (lane : LaneId)
  | holdoffExpiry
  -- replay timing
  | firstIntervalBegin (lane : LaneId)
  | intervalEnd (lane : LaneId)
  | trailingGapEnd (lane : LaneId)
  | carrierPhase (lane : LaneId)
  -- the system bus
  | busGrant
  | wordAck (data : Word)
  | fetchComplete (data : Word)
  | writeBack
  | errorReply
  | noResponse
  | softResetComplete
  -- writes to LCMD
  | start (lane : LaneId) (arg : BitVec 12)
  | stop (lane : LaneId) (arg : BitVec 12)
  | abort (lane : LaneId) (arg : BitVec 12)
  | skip (lane : LaneId) (arg : BitVec 12)
  | flush (lane : LaneId) (arg : BitVec 12)
  | recover (lane : LaneId) (arg : BitVec 12)
  | reset (lane : LaneId) (arg : BitVec 12)
  | lcmdBadCommand (lane : LaneId) (code : BitVec 4) (arg : BitVec 12)
  -- writes to GCMD
  | snap
  | note
  | softReset
  | gcmdUnknown (code : BitVec 4)
  -- writes to PCMD
  | commit (index : ProfileIx)
  | clear (index : ProfileIx)
  | load (index : ProfileIx)
  | pcmdBadCommand (code : BitVec 4) (index : ProfileIx)
  -- writes to the other registers
  | controlWrite (value : Word)
  | prescWrite (value : Word)
  | resplimWrite (value : Word)
  | irqctlWrite (value : Word)
  | irqholdWrite (value : Word)
  | evqpop (value : Word)
  | fclr (value : Word)
  | postedWrite (lane : LaneId) (value : Word)
  | rbaseWrite (lane : LaneId) (high : Bool) (value : Word)
  | rsizeWrite (lane : LaneId) (value : Word)
  | lcfgWrite (lane : LaneId) (value : Word)
  | registerWrite (size : AccessSize) (offset : BitVec 10) (value : Word)
deriving DecidableEq, Repr

end Sys2Proof
end

