-- ==== Sys2Proof/Decode.lean ====
section
/-! DEFINITION. The commands that words spell by the table's bits. No row of spec/opcode_table.json
gives bits, so no word spells a command; a window write is told by its address (Machine/Registers.lean). -/

namespace Sys2Proof

/-- The command an opcode-table word of `nbits` bits spells: none, for the table gives no row bits. -/
def decodeTableWord (_nbits _w : Nat) : Option Instr := none

end Sys2Proof
end

