-- ==== Sys2Proof/Config.lean ====
section
/-! DEFINITION. What the manual fixes as a number of the part, and the one value it leaves open. -/

namespace Sys2Proof

/-- Entries of a lane FIFO (1.2, R28). -/
def Config.fifoDepth : Nat := 32

/-- Base ticks in a coarse unit (R6). -/
def Config.coarse : Nat := 1024

/-- Words of a frame record's header (R42). -/
def Config.headerWords : Nat := 8

/-- Words of a decode section (R63). -/
def Config.decodeWords : Nat := 5

/-- Words of a replay record's header (R90). -/
def Config.replayHeaderWords : Nat := 4

/-- Most word cycles of one burst (R153). -/
def Config.burstWords : Nat := 8

/-- FREE VALUE (log 14). What the LANE field of MPOOL reads for a unit that is FREE: R71 says that
MPOOL reads "FREE, or CLAIMED with the number of the claiming lane" and gives the field no value for
a free unit. It has no body: nothing can be proved of it. -/
opaque Config.freeUnitLane : BitVec 1 → BitVec 3

end Sys2Proof
end

