-- ==== Sys2Proof/Machine/State.lean ====
section
/-! DEFINITION. The state of the GC2408 as plain data, block by block (spec/00_scope.md, 1.2), the
reasons a command could stop, and the state after a device reset. -/

namespace Sys2Proof.Machine

/-! ## Pins and lane configuration -/

/-- A line level. -/
inductive Level where
  | low
  | high
deriving DecidableEq, Repr

/-- LMODE (R7). -/
inductive LMode where
  | none
  | capture
  | meter
  | replay
deriving DecidableEq, Repr

/-- DRIVE (R7): how a replay lane presents a space. -/
inductive DriveStyle where
  | release
  | drive
deriving DecidableEq, Repr

/-- The configuration registers of a lane: LCFG (R7), the capture registers (R17), the meter
registers (R73) and the carrier registers (R88). Each field stores the value written. -/
structure LaneRegs where
  lmode : LMode
  idle : Level
  driveStyle : DriveStyle
  div : BitVec 3
  minw : BitVec 8
  lgap : Word
  maxmark : Word
  maxiv : Word
  tlimit : Word
  pmask : BitVec 8
  mmode : BitVec 2
  cont : Bool
  spread : Bool
  mcount : Word
  mtimeout : Word
  cper : Word
  chigh : Word
deriving DecidableEq, Repr

/-! ## Lane front end (chapter 1) -/

/-- The two stamps of a transition (R5): the base stamp and the lane-tick stamp. -/
structure EdgeStamp where
  base : Stamp
  tick : Stamp
deriving DecidableEq, Repr

/-- A pending change of the glitch filter (R9). -/
structure Change where
  stamp : EdgeStamp
  level : Level
deriving DecidableEq, Repr

/-- The front end's own state (spec/01, "The lane front end"). -/
structure FrontEnd where
  sampled : Level
  filtered : Level
  change : Option Change
  lastEdge : EdgeStamp
deriving DecidableEq, Repr

/-! ## Life cycle (chapter 6) -/

/-- ENDING (R114). -/
inductive Ending where
  | stop
  | abort
deriving DecidableEq, Repr

/-- FCAUSE (R114). -/
inductive FaultCause where
  | noResponse
  | errorReply
  | descOwner
deriving DecidableEq, Repr

/-- The top-level state of a lane (R114). ENDING is held only while STOPPING and FCAUSE only while
FAULTED. `flushing true` is a flush that ABORT ends at its next handing back (R145). -/
inductive Life where
  | stopped
  | running
  | stopping (ending : Ending)
  | flushing (aborting : Bool)
  | faulted (cause : FaultCause)
deriving DecidableEq, Repr

/-- LRESULT (R115). -/
inductive LResult where
  | none
  | accepted
  | busy
  | badConfig
  | disabled
  | noMeter
  | badCommand
deriving DecidableEq, Repr

/-- DROPWHY (R18). -/
inductive DropWhy where
  | none
  | skipped
  | noSlot
  | noBuffer
deriving DecidableEq, Repr

/-! ## Descriptors (chapter 7) -/

/-- The owner field of a descriptor (R134). -/
inductive Owner where
  | host
  | device
deriving DecidableEq, Repr

/-- The part's copy of a descriptor (R134). -/
structure Desc where
  index : Nat
  owner : Owner
  addr : Addr
  length : BitVec 12
deriving DecidableEq, Repr

/-- The status codes of a write-back (R141). -/
inductive DescStatus where
  | record
  | badBuffer
  | flushed
  | ok
  | malformed
  | underrun
  | aborted
  | stoppedEarly
  | profileChanged
deriving DecidableEq, Repr

/-- The spare slot (R135). A fetch keeps its ring index, whether its burst has begun, and the words
its burst has handed over so far (R137, R154). -/
inductive Slot where
  | empty
  | fetching (index : Nat) (granted : Bool) (words : List Word)
  | held (desc : Desc)
deriving DecidableEq, Repr

/-- The status a descriptor of the return slot is handed back with (R135). -/
inductive ReturnStatus where
  | badBuffer
  | flushed
deriving DecidableEq, Repr

/-- A descriptor in the return slot (R135). -/
structure Returned where
  desc : Desc
  status : ReturnStatus
deriving DecidableEq, Repr

/-- The ring controller of a lane (R130 to R133). -/
structure Ring where
  rbase : Addr
  rsize : Word
  posted : Word
  consumed : Word
  slot : Slot
  ret : Option Returned
  ringEmpty : Bool
  postRefused : Bool
  flcount : Word
deriving DecidableEq, Repr

/-! ## Frame assembler (chapter 2) -/

/-- CSTATE (R18). -/
inductive CState where
  | inactive
  | arming
  | listen
  | inFrame
  | holdoff
deriving DecidableEq, Repr

/-- What becomes of a frame (R22). -/
inductive Disposition where
  | kept
  | skipped
  | dropped
deriving DecidableEq, Repr

/-- The current frame (R22). `inMark` tells the kind of the interval in progress. -/
structure Frame where
  start : Stamp
  intervalStart : Stamp
  inMark : Bool
  total : Nat
  stored : Nat
  glitches : Nat
  seq : Word
  disp : Disposition
deriving DecidableEq, Repr

/-- The close reasons of frames and measurements (R30, R75). -/
inductive Close where
  | gap
  | full
  | stuck
  | long
  | overrun
  | aborted
  | complete
  | timeout
deriving DecidableEq, Repr

/-- The decode fields a GAP close fixes into a record (R61). -/
structure DecodeResult where
  profile : ProfileIx
  isRepeat : Bool
  bits : Nat
  value : BitVec 64
deriving DecidableEq, Repr

/-- The step a record has reached (R37). -/
inductive RecordStep where
  | drain
  | decode
  | header
  | writeback
deriving DecidableEq, Repr

/-- An open record (R25, R31). `close` is absent while the record is FILLING, and the counts stand in the
open frame till then (DESIGN CHOICE, log 26). -/
structure Record where
  desc : Desc
  capacity : Nat
  seq : Word
  droppedBefore : Word
  start : Stamp
  total : Nat
  stored : Nat
  glitches : Nat
  close : Option Close
  decoded : Option DecodeResult
  drained : Nat
  step : RecordStep
deriving DecidableEq, Repr

/-- An entry of the lane FIFO. -/
inductive FifoEntry where
  | interval (value : Word)
  | endMarker
deriving DecidableEq, Repr

/-- The frame assembler (R18, 2.2). `waiting` is set while a limit point has been reached with a
change pending and the decision waits for its settlement (R15). Records stand oldest first. -/
structure Assembler where
  cstate : CState
  frame : Option Frame
  waiting : Bool
  records : List Record
deriving DecidableEq, Repr

/-! ## Profiles (chapter 3) -/

/-- Minimum, nominal and maximum of one symbol (R45). -/
structure Triple where
  min : Word
  nom : Word
  max : Word
deriving DecidableEq, Repr

/-- The fields of a profile entry and of the staging set (R45, R47). -/
structure ProfileFields where
  hasLead : Bool
  hasRepeat : Bool
  msbFirst : Bool
  bitMin : BitVec 8
  bitMax : BitVec 8
  leadMark : Triple
  leadSpace : Triple
  repeatSpace : Triple
  zeroMark : Triple
  zeroSpace : Triple
  oneMark : Triple
  oneSpace : Triple
  stopMark : Triple
deriving DecidableEq, Repr

/-- An entry of the profile table: VALID, or EMPTY with every field 0 (R45). -/
structure Profile where
  valid : Bool
  fields : ProfileFields
deriving DecidableEq, Repr

/-- PRESULT (R48). -/
inductive PResult where
  | none
  | ok
  | badRange
  | badNominal
  | badBits
  | repeatNeedsLead
  | ambiguous
  | badCommand
deriving DecidableEq, Repr

/-- The states of a matcher (R53). -/
inductive MatchState where
  | off
  | expectLeadMark
  | expectLeadSpace
  | expectRepeatStop
  | repeatEnd
  | expectMark
  | expectSpaceOrEnd
  | dead
deriving DecidableEq, Repr

/-- A matcher (R53): its state, the bit count, the value and the pending mark. -/
structure Matcher where
  state : MatchState
  bits : Nat
  value : BitVec 64
  mark : Word
deriving DecidableEq, Repr

/-! ## Meter pool (chapter 4) -/

/-- MSTATE (R74). -/
inductive MState where
  | inactive
  | armed
  | counting
  | result
deriving DecidableEq, Repr

/-- A meter unit (R71, R75 to R79). `inItem` tells whether an item is in progress; `timeout` is the
start of the timeout while it runs. -/
structure MeterUnit where
  claim : Option LaneId
  state : MState
  armTime : Stamp
  startStamp : Stamp
  itemStart : Stamp
  inItem : Bool
  items : Nat
  total : Stamp
  sat : Bool
  minItem : Stamp
  maxItem : Stamp
  timeout : Option Stamp
deriving DecidableEq, Repr

/-- The two meter units. -/
structure MeterPool where
  meter0 : MeterUnit
  meter1 : MeterUnit
deriving DecidableEq, Repr

/-- The next burst of a result in the result slot (R82). -/
inductive ResultStep where
  | header1
  | header2
  | writeback
deriving DecidableEq, Repr

/-- A bound result in the lane's result slot (R80 to R83). `spread` is the record's SPREAD flag. -/
structure MeterResult where
  desc : Desc
  close : Close
  spread : Bool
  sat : Bool
  mode : BitVec 2
  unit : UnitId
  seq : Word
  droppedBefore : Word
  start : Stamp
  items : Nat
  total : Stamp
  minItem : Stamp
  maxItem : Stamp
  step : ResultStep
deriving DecidableEq, Repr

/-! ## Replay engine (chapter 5) -/

/-- RSTATE (R89). -/
inductive RState where
  | inactive
  | rWait
  | rLoad
  | rFill
  | rPlay
  | rTrail
deriving DecidableEq, Repr

/-- The kind of a replay record (R90). -/
inductive RKind where
  | intervals
  | code
deriving DecidableEq, Repr

/-- The interval in progress and the base ticks it still lasts (R91, R99). -/
structure Playing where
  isMark : Bool
  value : Word
  left : Nat
deriving DecidableEq, Repr

/-- The current replay record (R91). `kind` is absent until the header has been checked, and
`loaded` holds the words of the LOAD in progress. `tickSeen` tells that a base tick has come since
the engine entered R_PLAY from R_FILL or R_LOAD (R99); `gapLeft` is what remains of the trailing gap
(R102). What a field holds while no rule gives it a value is a DESIGN CHOICE (log 25). -/
structure ReplayRecord where
  desc : Desc
  kind : Option RKind
  carrier : Bool
  repeatCount : BitVec 8
  gap : Word
  count : BitVec 10
  profile : ProfileIx
  isRepeat : Bool
  bitCount : BitVec 7
  value : BitVec 64
  passes : Nat
  fetched : Nat
  played : Nat
  playing : Option Playing
  tickSeen : Bool
  gapLeft : Nat
  carrierPhase : Nat
  carrierActive : Bool
  stopRequested : Bool
  endPending : Bool
  loaded : List Word
deriving DecidableEq, Repr

/-- The finished record, which waits for its write-back (R91, R107). -/
structure FinishedRecord where
  desc : Desc
  kind : Option RKind
  status : DescStatus
  passes : Nat
deriving DecidableEq, Repr

/-- The replay engine (R91). -/
structure ReplayEngine where
  rstate : RState
  current : Option ReplayRecord
  finished : Option FinishedRecord
deriving DecidableEq, Repr

/-! ## A lane -/

/-- Everything a lane holds. `line` is the level the board holds at the lane's pin while the part
does not drive it. -/
structure Lane where
  line : Level
  regs : LaneRegs
  fe : FrontEnd
  life : Life
  lresult : LResult
  writeIgnored : Bool
  seq : Word
  dropped : Word
  dropWhy : DropWhy
  skipCount : Nat
  cap : Assembler
  matchers : Eight Matcher
  fifo : List FifoEntry
  result : Option MeterResult
  rep : ReplayEngine
  ring : Ring
deriving DecidableEq, Repr

/-! ## Bus master (chapter 8) -/

/-- The purpose of a burst (R153). -/
inductive Purpose where
  | fetch
  | drain
  | decode
  | header
  | writeback
  | fill
  | load
deriving DecidableEq, Repr

/-- The word cycle in progress: its address, the word of a write cycle, the core clocks it has run
and the response limit it began with (R154, R155). The word of a read cycle is a DESIGN CHOICE (log 27). -/
structure Cycle where
  addr : Addr
  data : Word
  elapsed : Nat
  limit : BitVec 12
deriving DecidableEq, Repr

/-- The current burst (R153). `forRing` marks a WRITEBACK made for the ring controller's return slot
(R148). `base` is the first address, or the ring entry of a WRITEBACK; `done` counts the words
acknowledged. `orphan` is set once the burst's lane has been reset (R159). -/
structure Burst where
  lane : LaneId
  purpose : Purpose
  forRing : Bool
  base : Addr
  done : Nat
  remaining : Nat
  orphan : Bool
  cycle : Cycle
deriving DecidableEq, Repr

/-- The system bus state (R151). The bus is owned exactly while a burst is in progress. -/
inductive BusState where
  | idle
  | requesting
  | owned (burst : Burst)
deriving DecidableEq, Repr

/-- The fault record (R157). `isWrite` is the direction; `errorReply` tells ERROR_REPLY from
NO_RESPONSE. -/
structure FaultRecord where
  valid : Bool
  multi : Bool
  addr : Addr
  isWrite : Bool
  lane : LaneId
  purpose : Purpose
  errorReply : Bool
deriving DecidableEq, Repr

/-- The bus master (spec/08). -/
structure BusMaster where
  bstate : BusState
  ptr : LaneId
  resplim : BitVec 12
  fault : FaultRecord
deriving DecidableEq, Repr

/-! ## Event queue (chapter 9) -/

/-- The kinds of event (R162). -/
inductive EventKind where
  | frameRecord
  | meterRecord
  | replayDone
  | ringEmpty
  | laneStopped
  | flushDone
  | laneFault
  | note
  | overflow
deriving DecidableEq, Repr

/-- An event (R162). `lane = none` is DEVICE. -/
structure Event where
  kind : EventKind
  lane : Option LaneId
  value : Word
deriving DecidableEq, Repr

/-- A running holdoff timer: its start and the IHOLD value it runs for (R171). -/
structure HoldTimer where
  start : Stamp
  length : Word
deriving DecidableEq, Repr

/-- The event queue and the interrupt settings. Entries stand oldest first. -/
structure EventQueue where
  entries : List Event
  ie : Bool
  ithresh : BitVec 6
  ihold : Word
  timer : Option HoldTimer
  expired : Bool
deriving DecidableEq, Repr

/-! ## Timebase and device control (chapters 1 and 10) -/

/-- The timebase (spec/01). `phase` counts core clocks since the last base tick. -/
structure Timebase where
  count : Stamp
  prescale : BitVec 9
  phase : Nat
  tsnap : Stamp
deriving DecidableEq, Repr

/-- Device control (spec/10): ENABLE, the two fields of STATUS, and GARG. -/
structure Control where
  enable : Bool
  resetPending : Bool
  refused : Bool
  garg : Word
deriving DecidableEq, Repr

/-- The state of the part, and the commands that wait, first in first out. -/
structure State where
  pending : List Instr
  time : Timebase
  ctl : Control
  lanes : Eight Lane
  table : Eight Profile
  staging : ProfileFields
  presult : PResult
  meters : MeterPool
  bus : BusMaster
  queue : EventQueue
deriving DecidableEq, Repr

/-! ## Why a command could stop -/

/-- No command of the block stops with a fault: the spec gives every command an effect in every
state, and a bus fault or an ownership fault is an effect on the lane (R126). -/
inductive Fault where
deriving DecidableEq, Repr

/-- Why a command has no meaning here. -/
inductive Refusal where
  /-- Raised by exec's arm of a command that has no meaning yet. Safe: the machine stops. -/
  | notModelled (mnemonic : String)
deriving DecidableEq, Repr

/-! ## Reset values -/

/-- A triple of zeros. -/
def Triple.zero : Triple := ⟨0, 0, 0⟩

/-- The fields of an EMPTY entry, and of the staging set after a device reset (R45, R47). -/
def ProfileFields.zero : ProfileFields :=
  { hasLead := false, hasRepeat := false, msbFirst := false, bitMin := 0, bitMax := 0,
    leadMark := .zero, leadSpace := .zero, repeatSpace := .zero, zeroMark := .zero,
    zeroSpace := .zero, oneMark := .zero, oneSpace := .zero, stopMark := .zero }

/-- An EMPTY entry (R45). -/
def Profile.empty : Profile := ⟨false, .zero⟩

/-- A matcher that is OFF (R53); what its other fields hold is a DESIGN CHOICE (log 16). -/
def Matcher.off : Matcher := ⟨.off, 0, 0, 0⟩

/-- The configuration registers after any reset (R16, R17, R73, R88). -/
def LaneRegs.reset : LaneRegs :=
  { lmode := .none, idle := .low, driveStyle := .release, div := 0, minw := 1,
    lgap := 1000, maxmark := 65535, maxiv := 1023, tlimit := 0, pmask := 0,
    mmode := 0, cont := false, spread := false, mcount := 1, mtimeout := 0,
    cper := 2, chigh := 1 }

/-- The ring controller after any reset (R147). -/
def Ring.reset : Ring :=
  { rbase := 0, rsize := 0, posted := 0, consumed := 0, slot := .empty, ret := none,
    ringEmpty := false, postRefused := false, flcount := 0 }

/-- The frame assembler after any reset (R44). -/
def Assembler.reset : Assembler :=
  { cstate := .inactive, frame := none, waiting := false, records := [] }

/-- The replay engine after any reset (R113). -/
def ReplayEngine.reset : ReplayEngine :=
  { rstate := .inactive, current := none, finished := none }

/-- A lane after a lane reset (R128) at which the pin shows `line`, its last accepted edge takes
`stamp`, and LRESULT reads `result`. -/
def Lane.afterReset (line : Level) (stamp : Stamp) (result : LResult) : Lane :=
  { line := line, regs := .reset,
    fe := { sampled := line, filtered := line, change := none, lastEdge := ⟨stamp, stamp⟩ },
    life := .stopped, lresult := result, writeIgnored := false,
    seq := 0, dropped := 0, dropWhy := .none, skipCount := 0,
    cap := .reset, matchers := .fill .off, fifo := [], result := none,
    rep := .reset, ring := .reset }

/-- A free meter unit (R72); what its fields hold is a DESIGN CHOICE (log 16). -/
def MeterUnit.free : MeterUnit :=
  { claim := none, state := .inactive, armTime := 0, startStamp := 0, itemStart := 0,
    inItem := false, items := 0, total := 0, sat := false, minItem := 0xFFFFFFFF, maxItem := 0,
    timeout := none }

/-- Both units free (R72). -/
def MeterPool.free : MeterPool := ⟨.free, .free⟩

/-- The cleared fault record (R158). -/
def FaultRecord.cleared : FaultRecord :=
  { valid := false, multi := false, addr := 0, isWrite := false, lane := 0,
    purpose := .fetch, errorReply := false }

/-- The bus master after a device reset (R160). -/
def BusMaster.reset : BusMaster :=
  { bstate := .idle, ptr := 0, resplim := 1024, fault := .cleared }

/-- The event queue after a soft or device reset (R173). -/
def EventQueue.reset : EventQueue :=
  { entries := [], ie := false, ithresh := 1, ihold := 0, timer := none, expired := false }

/-- The timebase after a device reset (R3). -/
def Timebase.reset : Timebase := { count := 0, prescale := 1, phase := 0, tsnap := 0 }

/-- Device control after a device reset (R181). -/
def Control.reset : Control := { enable := false, resetPending := false, refused := false, garg := 0 }

/-- The part after a device reset (R181) at which every pin shows LOW (DESIGN CHOICE, log 2), with no command
waiting. -/
def State.reset : State :=
  { pending := [], time := .reset, ctl := .reset,
    lanes := .fill (.afterReset .low 0 .none),
    table := .fill .empty, staging := .zero, presult := .none,
    meters := .free, bus := .reset, queue := .reset }

end Sys2Proof.Machine
end

