-- ==== Sys2Proof/Machine/Ops.lean ====
section
/-! DEFINITION. The operations every block shares: stamps and durations, access to the lanes and the
meter units, what a lane's step hands to the event queue, and the event queue itself. -/

namespace Sys2Proof.Machine

/-! ## Levels, stamps and limits -/

/-- The other level. -/
def Level.flip : Level → Level
  | .low => .high
  | .high => .low

/-- The lane-tick stamp of a base stamp (R5). -/
def laneTick (div : BitVec 3) (count : Stamp) : Stamp := count >>> div.toNat

/-- A duration in lane ticks: a difference of lane-tick stamps modulo 2^(32 − DIV) (R5). -/
def tickDiff (div : BitVec 3) (later earlier : Stamp) : Nat :=
  (later - earlier).toNat % 2 ^ (32 - div.toNat)

/-- A duration in base ticks, modulo 2^32 (R5). -/
def baseDiff (later earlier : Stamp) : Nat := (later - earlier).toNat

/-- Base ticks in `ticks` lane ticks (R5). -/
def laneTicksToBase (div : BitVec 3) (ticks : Nat) : Nat := ticks * 2 ^ div.toNat

/-- A limit of `units` coarse units started at `start` has been reached; a limit of 0 is off (R6). -/
abbrev limitReached (now start : Stamp) (units : Word) : Prop :=
  units ≠ 0 ∧ units.toNat * Config.coarse ≤ baseDiff now start

/-- Both stamps of a transition seen at timebase count `count` (R5, R8). -/
def EdgeStamp.at (div : BitVec 3) (count : Stamp) : EdgeStamp := ⟨count, laneTick div count⟩

/-! ## Lanes -/

/-- The lane numbered `n`. -/
def State.lane (s : State) (n : LaneId) : Lane := s.lanes.get n

/-- The lane numbered `n` replaced. -/
def State.setLane (s : State) (n : LaneId) (l : Lane) : State := { s with lanes := s.lanes.set n l }

/-- An engine is at work on the lane: it is RUNNING or STOPPING (R14, R100). -/
def Life.active : Life → Bool
  | .running | .stopping _ => true
  | _ => false

/-- The lane is FLUSHING. -/
def Life.isFlushing : Life → Bool
  | .flushing _ => true
  | _ => false

/-- The engine of mode `m` is at work on the lane (R14). -/
abbrev Lane.runs (l : Lane) (m : LMode) : Prop := l.regs.lmode = m ∧ l.life.active = true

/-- The current lane-tick stamp of the lane (R5). -/
def Lane.nowTick (l : Lane) (now : Stamp) : Stamp := laneTick l.regs.div now

/-- The filtered level is the idle level (R13). -/
abbrev Lane.filteredIdle (l : Lane) : Prop := l.fe.filtered = l.regs.idle

/-! ## Meter units -/

/-- The unit numbered `u`. -/
def MeterPool.get (p : MeterPool) (u : UnitId) : MeterUnit :=
  match u with
  | 0 => p.meter0
  | 1 => p.meter1

/-- The unit numbered `u` replaced. -/
def MeterPool.set (p : MeterPool) (u : UnitId) (m : MeterUnit) : MeterPool :=
  match u with
  | 0 => { p with meter0 := m }
  | 1 => { p with meter1 := m }

/-- The unit the lane holds (R71). -/
def MeterPool.heldBy (p : MeterPool) (n : LaneId) : Option UnitId :=
  if p.meter0.claim = some n then some 0
  else if p.meter1.claim = some n then some 1
  else none

/-- The lowest-numbered free unit (R71). -/
def MeterPool.lowestFree (p : MeterPool) : Option UnitId :=
  if p.meter0.claim = none then some 0
  else if p.meter1.claim = none then some 1
  else none

/-- Every unit the lane holds becomes free (R72). -/
def MeterPool.release (p : MeterPool) (n : LaneId) : MeterPool :=
  { meter0 := if p.meter0.claim = some n then .free else p.meter0,
    meter1 := if p.meter1.claim = some n then .free else p.meter1 }

/-! ## The event queue (9.2, 9.3) -/

/-- The OVERFLOW entry that takes a discarded event's place (R163). -/
def Event.overflowOne : Event := ⟨.overflow, none, 1⟩

/-- The count of an OVERFLOW entry raised by one, saturating at 65535 (R163). -/
def Event.raise (e : Event) : Event :=
  if e.value = 65535 then e else { e with value := e.value + 1 }

/-- The newest entry replaced by `f` of it. -/
def mapNewest (f : Event → Event) : List Event → List Event
  | [] => []
  | [e] => [f e]
  | e :: es => e :: mapNewest f es

/-- The newest entry is an OVERFLOW entry. -/
def newestIsOverflow (es : List Event) : Bool :=
  match es.getLast? with
  | some e => decide (e.kind = .overflow)
  | none => false

/-- The entries after a post (R163). With 32 entries held the newest is OVERFLOW in every state a run
reaches; in any other, the post leaves the entries as they are (DESIGN CHOICE, log 13). -/
def postEntries (es : List Event) (e : Event) : List Event :=
  if es.length ≤ 30 then es ++ [e]
  else if newestIsOverflow es then mapNewest Event.raise es
  else if es.length = 31 then es ++ [.overflowOne]
  else es

/-- A timer of IHOLD coarse units started at `now`; with IHOLD 0 none runs (R171). -/
def EventQueue.startTimer (q : EventQueue) (now : Stamp) : Option HoldTimer :=
  if q.ihold = 0 then none else some ⟨now, q.ihold⟩

/-- A post (R163); one that meets an empty queue starts the holdoff timer (R171). -/
def EventQueue.post (q : EventQueue) (now : Stamp) (e : Event) : EventQueue :=
  { q with
    entries := postEntries q.entries e
    timer := if q.entries = [] then q.startTimer now else q.timer }

/-- A removal of the oldest entry (R167, R171, R172). -/
def EventQueue.pop (q : EventQueue) (now : Stamp) : EventQueue :=
  match q.entries with
  | [] => q
  | [_] => { q with entries := [], timer := none, expired := false }
  | _ :: rest => { q with entries := rest, timer := q.startTimer now }

/-- The interrupt request is asserted (R169). -/
def EventQueue.irq (q : EventQueue) : Bool :=
  q.ie && (decide (q.ithresh.toNat ≤ q.entries.length) || q.expired)

/-! ## What a lane's step hands over -/

/-- An event a lane posts: its kind and value. -/
abbrev Post := EventKind × Word

/-- A lane after a step, and the events it posts, in the order its rule gives (R164). -/
structure LaneOut where
  lane : Lane
  posts : List Post
deriving DecidableEq, Repr

/-- A step that posts nothing. -/
def Lane.quiet (l : Lane) : LaneOut := ⟨l, []⟩

/-- `f` after `o`, the posts in that order. -/
def LaneOut.next (o : LaneOut) (f : Lane → LaneOut) : LaneOut :=
  ⟨(f o.lane).lane, o.posts ++ (f o.lane).posts⟩

/-- One event taken into the queue (R163). -/
def State.post (s : State) (e : Event) : State :=
  { s with queue := s.queue.post s.time.count e }

/-- The events of a lane's step taken one directly after the other (R164). -/
def State.postAll (s : State) (n : LaneId) : List Post → State
  | [] => s
  | (k, v) :: rest => (s.post ⟨k, some n, v⟩).postAll n rest

/-- The outcome of a step of lane `n` put into the state. -/
def State.putLane (s : State) (n : LaneId) (o : LaneOut) : State :=
  (s.setLane n o.lane).postAll n o.posts

/-! ## Window writes -/

/-- A write to the window: ignored while a soft reset is pending (R180). -/
def State.hostWrite (s : State) (f : State → State) : State :=
  if s.ctl.resetPending then s else f s

/-- A control write that is refused (R176). -/
def State.refuse (s : State) : State := { s with ctl.refused := true }

/-- A control write that is taken (R176). -/
def State.taken (s : State) : State := { s with ctl.refused := false }

/-! ## Ending a lane's work -/

/-- The fetch of the spare whose burst has not been granted is withdrawn (R136). -/
def Ring.withdraw (r : Ring) : Ring :=
  match r.slot with
  | .fetching _ false _ => { r with slot := .empty }
  | _ => r

/-- The lane becomes STOPPED: a fetch not yet granted is withdrawn, a held spare stays (R120). -/
def Lane.becomeStopped (l : Lane) : Lane :=
  { l with life := .stopped, ring := l.ring.withdraw }

/-- The value a LANE_STOPPED event carries for an ending (R186). -/
def Ending.value : Ending → Word
  | .stop => 1
  | .abort => 2

/-- A STOPPING lane whose engine finishes becomes STOPPED and posts LANE_STOPPED (R120). -/
def Lane.finishStopping (l : Lane) : LaneOut :=
  match l.life with
  | .stopping e => ⟨l.becomeStopped, [(.laneStopped, e.value)]⟩
  | _ => l.quiet

end Sys2Proof.Machine
end

