-- ==== Sys2Proof/Machine/Profiles.lean ====
section
/-! DEFINITION. Signal profiles (chapter 3): the commit checks, the matchers, the result at a GAP
close and the encoder. -/

namespace Sys2Proof.Machine

/-! ## Triples and the commit checks -/

/-- An interval lies in a triple (R46). -/
abbrev Triple.holds (t : Triple) (v : Word) : Prop := t.min ≤ v ∧ v ≤ t.max

/-- Two triples overlap (R46). -/
abbrev Triple.overlaps (a b : Triple) : Prop := a.min ≤ b.max ∧ b.min ≤ a.max

/-- The used triples (R46). -/
def ProfileFields.usedTriples (p : ProfileFields) : List Triple :=
  (if p.hasLead then [p.leadMark, p.leadSpace] else [])
    ++ (if p.hasRepeat then [p.repeatSpace] else [])
    ++ [p.zeroMark, p.zeroSpace, p.oneMark, p.oneSpace, p.stopMark]

/-- Check 1 of R49. -/
abbrev Triple.rangeOk (t : Triple) : Prop := 1 ≤ t.min ∧ t.min ≤ t.max

/-- Check 2 of R49. -/
abbrev Triple.nominalOk (t : Triple) : Prop := t.min ≤ t.nom ∧ t.nom ≤ t.max

/-- Check 3 of R49. -/
abbrev ProfileFields.bitsOk (p : ProfileFields) : Prop :=
  1 ≤ p.bitMin ∧ p.bitMin ≤ p.bitMax ∧ p.bitMax ≤ 64

/-- Check 4 of R49. -/
abbrev ProfileFields.leadOk (p : ProfileFields) : Prop := p.hasRepeat = false ∨ p.hasLead = true

/-- Check 5 of R49. -/
abbrev ProfileFields.unambiguous (p : ProfileFields) : Prop :=
  (¬ p.zeroMark.overlaps p.oneMark ∨ ¬ p.zeroSpace.overlaps p.oneSpace)
    ∧ (p.hasRepeat = true → ¬ p.leadSpace.overlaps p.repeatSpace)

/-- The outcome of COMMIT's checks, in their order: the first that fails decides (R49). -/
def ProfileFields.commitResult (p : ProfileFields) : PResult :=
  if ¬ (∀ t ∈ p.usedTriples, t.rangeOk) then .badRange
  else if ¬ (∀ t ∈ p.usedTriples, t.nominalOk) then .badNominal
  else if ¬ p.bitsOk then .badBits
  else if ¬ p.leadOk then .repeatNeedsLead
  else if ¬ p.unambiguous then .ambiguous
  else .ok

/-! ## Matchers (3.3) -/

/-- A matcher in a tracking state is live (R53). -/
def MatchState.live : MatchState → Bool
  | .off | .dead => false
  | _ => true

/-- The matcher gone DEAD (R59). -/
def Matcher.kill (m : Matcher) : Matcher := { m with state := .dead }

/-- The matcher a kept frame starts for an index set in PMASK (R53). The pending mark of 0, and what a DEAD one's
fields hold, are a DESIGN CHOICE (log 16). -/
def Profile.startMatcher (p : Profile) : Matcher :=
  if p.valid then
    { state := if p.fields.hasLead then .expectLeadMark else .expectMark,
      bits := 0, value := 0, mark := 0 }
  else { Matcher.off with state := .dead }

/-- The value after one more bit (R62). -/
def ProfileFields.addBit (p : ProfileFields) (value : BitVec 64) (count : Nat) (bit : Bool) :
    BitVec 64 :=
  let b : BitVec 64 := if bit then 1 else 0
  if p.msbFirst then (value <<< 1) ||| b else value ||| (b <<< count)

/-- A bit decided by a mark and a space (R58). -/
def Matcher.takeBit (m : Matcher) (p : ProfileFields) (bit : Bool) : Matcher :=
  { m with state := .expectMark, bits := m.bits + 1, value := p.addBit m.value m.bits bit }

/-- A matcher takes an interval (R55 to R58). -/
def Matcher.step (m : Matcher) (p : ProfileFields) (v : Word) : Matcher :=
  match m.state with
  | .off | .dead => m
  | .expectLeadMark =>
    if p.leadMark.holds v then { m with state := .expectLeadSpace } else m.kill
  | .expectLeadSpace =>
    if p.leadSpace.holds v then { m with state := .expectMark }
    else if p.hasRepeat = true ∧ p.repeatSpace.holds v then { m with state := .expectRepeatStop }
    else m.kill
  | .expectRepeatStop =>
    if p.stopMark.holds v then { m with state := .repeatEnd } else m.kill
  | .repeatEnd => m.kill
  | .expectMark =>
    if p.zeroMark.holds v ∨ p.oneMark.holds v ∨ p.stopMark.holds v then
      { m with state := .expectSpaceOrEnd, mark := v }
    else m.kill
  | .expectSpaceOrEnd =>
    if m.bits = p.bitMax.toNat then m.kill
    else if p.zeroMark.holds m.mark ∧ p.zeroSpace.holds v then m.takeBit p false
    else if p.oneMark.holds m.mark ∧ p.oneSpace.holds v then m.takeBit p true
    else m.kill

/-- Every matcher of a lane takes an interval (R54). -/
def feedMatchers (table : Eight Profile) (v : Word) (ms : Eight Matcher) : Eight Matcher :=
  ms.mapIdx fun i m => m.step (table.get i).fields v

/-- The matchers a kept frame starts (R25, R53). -/
def startMatchers (table : Eight Profile) (pmask : BitVec 8) : Eight Matcher :=
  table.mapIdx fun i p => if pmask.getLsbD i.val then p.startMatcher else .off

/-! ## The result at a GAP close (3.4) -/

/-- A matcher judged at a GAP close (R60). -/
def Matcher.outcome (m : Matcher) (p : ProfileFields) (i : ProfileIx) : Option DecodeResult :=
  match m.state with
  | .expectSpaceOrEnd =>
    if p.stopMark.holds m.mark ∧ p.bitMin.toNat ≤ m.bits ∧ m.bits ≤ p.bitMax.toNat then
      some ⟨i, false, m.bits, m.value⟩
    else none
  | .repeatEnd => some ⟨i, true, 0, 0⟩
  | _ => none

/-- The lowest-numbered matcher that succeeds gives the result (R61). -/
def gapResult (table : Eight Profile) (ms : Eight Matcher) : Option DecodeResult :=
  Eight.numbers.findSome? fun i => (ms.get i).outcome (table.get i).fields i

/-- Word `k` of a value of 64 bits, low word first (R62). -/
def wordOf (value : BitVec 64) (k : Nat) : Word := value.extractLsb' (16 * k) 16

/-- The value whose words, low word first, are `ws` (R62). -/
def valueOf : List Word → BitVec 64
  | [] => 0
  | w :: ws => (valueOf ws <<< 16) ||| w.zeroExtend 64

/-- Words a value of `bits` bits takes (R62). -/
def wordsForBits (bits : Nat) : Nat := (bits + 15) / 16

/-! ## The encoder (3.5) -/

/-- The mark and the space of one bit (R64). -/
def ProfileFields.bitIntervals (p : ProfileFields) (bit : Bool) : List Word :=
  if bit then [p.oneMark.nom, p.oneSpace.nom] else [p.zeroMark.nom, p.zeroSpace.nom]

/-- The bits of a value in the order they are sent (R64). -/
def ProfileFields.sendOrder (p : ProfileFields) (bits : Nat) (value : BitVec 64) : List Bool :=
  let up := (List.range bits).map fun k => value.getLsbD k
  if p.msbFirst then up.reverse else up

/-- The intervals of the DATA form (R64). -/
def ProfileFields.dataIntervals (p : ProfileFields) (bits : Nat) (value : BitVec 64) : List Word :=
  (if p.hasLead then [p.leadMark.nom, p.leadSpace.nom] else [])
    ++ (p.sendOrder bits value).flatMap p.bitIntervals
    ++ [p.stopMark.nom]

/-- The intervals of the REPEAT form (R65). -/
def ProfileFields.repeatIntervals (p : ProfileFields) : List Word :=
  [p.leadMark.nom, p.repeatSpace.nom, p.stopMark.nom]

/-! ## The table as the host reaches it -/

/-- PVALID (R45). -/
def validMask (table : Eight Profile) : Word :=
  Eight.numbers.foldr
    (fun i acc => acc ||| (if (table.get i).valid then (1 : Word) <<< i.val else 0)) 0

end Sys2Proof.Machine
end

