-- ==== Sys2Proof/Machine/Rings.lean ====
section
/-! DEFINITION. The ring controller of a lane (chapter 7): the next index, the request of a fetch,
the handing of the spare, the return slot and the end of a flush. -/

namespace Sys2Proof.Machine

/-- The address of ring entry `i` (R130). -/
def Ring.entryAddr (r : Ring) (i : Nat) : Addr := r.rbase + BitVec.ofNat 24 (8 * i)

/-- The index of the next descriptor to fetch: CONSUMED mod RSIZE, as a number (R131). -/
def Ring.nextIndex (r : Ring) : Nat := r.consumed.toNat % r.rsize.toNat

/-- The lane states in which a fetch is requested (R136). -/
def Life.fetches : Life → Bool
  | .running | .stopping _ | .flushing _ => true
  | _ => false

/-- A fetch is requested if all the conditions of R136 hold; the index is fixed at the request. -/
def Lane.requestFetch (l : Lane) : Lane :=
  if l.life.fetches = true ∧ l.ring.slot = .empty ∧ l.ring.ret = none
      ∧ l.ring.posted ≠ l.ring.consumed then
    { l with ring.slot := .fetching l.ring.nextIndex false [] }
  else l

/-- RSIZE is one START and FLUSH accept (R116, R122). -/
abbrev Ring.sizeFit (r : Ring) : Prop := 2 ≤ r.rsize.toNat ∧ r.rsize.toNat ≤ 256

/-! ## The spare (7.3) -/

/-- The buffer check of R139 and R24: the address is even and the length reaches the minimum. -/
abbrev Desc.fits (d : Desc) (minimum : Nat) : Prop :=
  d.addr.getLsbD 0 = false ∧ minimum ≤ d.length.toNat

/-- The ring controller's answer to an engine that comes to bind: the descriptor it hands over, if
any, and the ring after (R138, R139). A held spare that fails the check moves to the return slot as
BAD_BUFFER. -/
def Ring.bind (r : Ring) (minimum : Nat) : Option Desc × Ring :=
  match r.slot with
  | .held d =>
    if d.fits minimum then (some d, { r with slot := .empty })
    else (none, { r with slot := .empty, ret := some ⟨d, .badBuffer⟩ })
  | _ => (none, r)

/-- An engine has found no spare: RING_EMPTY is posted if POSTED equals CONSUMED and the latch is
clear, and the latch is set (R143). -/
def Lane.reportDry (l : Lane) : LaneOut :=
  if l.ring.posted = l.ring.consumed ∧ l.ring.ringEmpty = false then
    ⟨{ l with ring.ringEmpty := true }, [(.ringEmpty, l.ring.consumed)]⟩
  else l.quiet

/-! ## Fetching (R137) -/

/-- The copy a fetch makes of the four words read (R134, R183). -/
def Desc.ofWords (index : Nat) (w0 w1 w2 w3 : Word) : Desc :=
  { index := index
    owner := if w0.getLsbD 15 then .device else .host
    addr := w2.extractLsb' 0 8 ++ w1
    length := w3.extractLsb' 0 12 }

/-- A word of the fetch is handed over (R154). -/
def Lane.fetchWord (l : Lane) (data : Word) : Lane :=
  match l.ring.slot with
  | .fetching i g ws => { l with ring.slot := .fetching i g (ws ++ [data]) }
  | _ => l

/-- The copy the slot holds once its four words have been read. -/
def Lane.fetchedDesc (l : Lane) : Option Desc :=
  match l.ring.slot with
  | .fetching i _ [w0, w1, w2, w3] => some (Desc.ofWords i w0 w1 w2 w3)
  | _ => none

/-- A fetch completes with owner DEVICE: CONSUMED increments and the spare is held, or in FLUSHING
the descriptor goes to the return slot as FLUSHED (R137, R144). -/
def Lane.takeFetched (l : Lane) (d : Desc) : Lane :=
  if l.life.isFlushing then
    { l with ring.consumed := l.ring.consumed + 1, ring.slot := .empty,
             ring.ret := some ⟨d, .flushed⟩ }
  else
    { l with ring.consumed := l.ring.consumed + 1, ring.slot := .held d }

/-! ## Flushing (7.6) -/

/-- The flush ends: the lane becomes STOPPED and FLUSH_DONE is posted (R145). -/
def Lane.endFlush (l : Lane) : LaneOut :=
  ⟨l.becomeStopped, [(.flushDone, l.ring.flcount)]⟩

/-- The flush ends if nothing is held, requested, returning or posted (R145). -/
def Lane.checkFlush (l : Lane) : LaneOut :=
  if l.life.isFlushing = true ∧ l.ring.slot = .empty ∧ l.ring.ret = none
      ∧ l.ring.posted = l.ring.consumed then l.endFlush
  else l.quiet

/-- What the taking of FLUSH does to the ring controller (R144). -/
def Ring.beginFlush (r : Ring) : Ring :=
  match r.slot with
  | .held d => { r with flcount := 0, slot := .empty, ret := some ⟨d, .flushed⟩ }
  | _ => { r with flcount := 0 }

/-- The owner word of a return write-back is acknowledged (R139, R144, R145). -/
def Lane.returnDone (l : Lane) : LaneOut :=
  match l.ring.ret with
  | none => l.quiet
  | some t =>
    let ring := { l.ring with
      ret := none
      flcount := if t.status = .flushed then l.ring.flcount + 1 else l.ring.flcount }
    let l1 := { l with ring := ring }
    if l.life = .flushing true then l1.endFlush
    else l1.requestFetch.checkFlush

/-! ## Writes (7.1) -/

/-- What a taken write to RBASE or RSIZE does besides its register (R130). That each word of RBASE does
it by itself is DEDUCED (log 17). -/
def Ring.reinit (r : Ring) : Ring :=
  { r with
    posted := 0, consumed := 0, ringEmpty := false, postRefused := false
    slot := match r.slot with
      | .held _ => .empty
      | other => other }

/-- The ring controller has a burst requested or in progress (R130). -/
def Ring.busy (r : Ring) : Bool :=
  match r.slot, r.ret with
  | .fetching _ _ _, _ => true
  | _, some _ => true
  | _, none => false

/-- The slot is FETCHING. -/
def Slot.isFetching : Slot → Bool
  | .fetching _ _ _ => true
  | _ => false

/-- A write to POSTED (R132): refused, or accepted with the latch, the fetch and the flush that
follow from it. -/
def Lane.writePosted (l : Lane) (value : Word) : LaneOut :=
  let d := value - l.ring.consumed
  if l.ring.rsize < d ∨ (d = 0 ∧ l.ring.slot.isFetching = true) then
    { l with ring.postRefused := true }.quiet
  else
    let ring := { l.ring with
      posted := value, postRefused := false
      ringEmpty := if value = l.ring.consumed then l.ring.ringEmpty else false }
    { l with ring := ring }.requestFetch.checkFlush

end Sys2Proof.Machine
end

