-- ==== Sys2Proof/Machine/Capture.lean ====
section
/-! DEFINITION. The frame assembler (chapter 2): frame start, intervals, closes, the open-record list
and the words of a frame record. -/

namespace Sys2Proof.Machine

/-! ## The lane FIFO and the end markers (2.6) -/

/-- Intervals of the oldest undrained record that wait at the front of the FIFO. -/
def fifoLead : List FifoEntry → Nat
  | .interval _ :: rest => fifoLead rest + 1
  | _ => 0

/-- The word at the head of the FIFO. -/
def fifoHead : List FifoEntry → Word
  | .interval v :: _ => v
  | _ => 0

/-- At least 2 entries of the FIFO are free (R28). -/
abbrev fifoRoom (fifo : List FifoEntry) : Prop := fifo.length + 2 ≤ Config.fifoDepth

/-- The drain of a record is complete: its next step is the decode section if it is DECODED, and
the header otherwise (R39). -/
def Record.drainComplete (r : Record) : Record :=
  { r with step := if r.decoded.isSome then .decode else .header }

/-- The oldest record whose drain is not complete completes it. -/
def completeDrain : List Record → List Record
  | [] => []
  | r :: rs => if r.step = .drain then r.drainComplete :: rs else r :: completeDrain rs

/-- End markers that have come to the head of the FIFO are removed, each completing a drain (R39). -/
def dropMarkers : List FifoEntry → List Record → List FifoEntry × List Record
  | .endMarker :: fifo, rs => dropMarkers fifo (completeDrain rs)
  | fifo, rs => (fifo, rs)

/-- `dropMarkers` on the lane. -/
def Lane.settleMarkers (l : Lane) : Lane :=
  { l with fifo := (dropMarkers l.fifo l.cap.records).1
           cap.records := (dropMarkers l.fifo l.cap.records).2 }

/-- The newest record replaced by `f` of it. -/
def mapNewestRecord (f : Record → Record) : List Record → List Record
  | [] => []
  | [r] => [f r]
  | r :: rs => r :: mapNewestRecord f rs

/-- The oldest record replaced by `f` of it. -/
def Lane.mapOldest (l : Lane) (f : Record → Record) : Lane :=
  match l.cap.records with
  | [] => l
  | r :: rs => { l with cap.records := f r :: rs }

/-! ## Closing a frame (2.5) -/

/-- The sub-state after a close (R30). -/
def Close.nextState : Close → CState
  | .gap => .listen
  | .aborted => .inactive
  | _ => .holdoff

/-- What a close fixes into the record (R31). -/
def Record.closeWith (r : Record) (f : Frame) (why : Close) (dec : Option DecodeResult) : Record :=
  { r with close := some why, total := f.total, stored := f.stored, glitches := f.glitches,
           decoded := dec }

/-- The open frame `f` closes (R31). A decision that waits for a pending change on an idle line goes
on waiting, for the idle wait, when the frame is cut short (R20, R34). -/
def Lane.closeFrame (l : Lane) (table : Eight Profile) (f : Frame) (why : Close) : Lane :=
  let l1 := { l with
    cap.cstate := why.nextState
    cap.frame := none
    cap.waiting := l.cap.waiting && decide (why.nextState = .holdoff) && decide l.filteredIdle }
  if f.disp = .kept then
    let dec := if why = .gap then gapResult table l.matchers else none
    { l1 with
      cap.records := mapNewestRecord (fun r => r.closeWith f why dec) l.cap.records
      fifo := l.fifo ++ [FifoEntry.endMarker]
      matchers := .fill .off }.settleMarkers
  else l1

/-- The capacity of the record the frame is kept in: that of the newest record (R25). -/
def Lane.capacity (l : Lane) : Nat :=
  match l.cap.records.getLast? with
  | some r => r.capacity
  | none => 0

/-- A STUCK close: the mark is counted as MAXMARK, stored if there is capacity and room, and fed to
the matchers before the close (R33). -/
def Lane.closeStuck (l : Lane) (table : Eight Profile) (f : Frame) : Lane :=
  let f1 := { f with total := f.total + 1 }
  if f.disp = .kept then
    let l1 := { l with matchers := feedMatchers table l.regs.maxmark l.matchers }
    if f.stored < l.capacity ∧ fifoRoom l.fifo then
      { l1 with fifo := l.fifo ++ [FifoEntry.interval l.regs.maxmark] }.closeFrame table
        { f1 with stored := f.stored + 1 } .stuck
    else l1.closeFrame table f1 .stuck
  else l.closeFrame table f1 .stuck

/-! ## The limit points (2.2, 2.5) -/

/-- The mark of frame `f` has reached its mark point (R33). -/
abbrev Lane.markReached (l : Lane) (now : Stamp) (f : Frame) : Prop :=
  f.inMark = true ∧ l.regs.maxmark.toNat ≤ tickDiff l.regs.div (l.nowTick now) f.intervalStart

/-- The space of frame `f` has reached its gap point (R32). -/
abbrev Lane.gapReached (l : Lane) (now : Stamp) (f : Frame) : Prop :=
  f.inMark = false ∧ l.regs.lgap.toNat ≤ tickDiff l.regs.div (l.nowTick now) f.intervalStart

/-- The idle wait has reached its wait point (R20). -/
abbrev Lane.waitReached (l : Lane) (now : Stamp) : Prop :=
  l.filteredIdle ∧
    l.regs.lgap.toNat ≤ tickDiff l.regs.div (l.nowTick now) l.fe.lastEdge.tick

/-- The frame time limit has been reached (R34). -/
abbrev Lane.tlimitReached (l : Lane) (now : Stamp) (f : Frame) : Prop :=
  limitReached now f.start l.regs.tlimit

/-! ## Frame start (2.3) -/

/-- The buffer minimum of a capture lane (R24, R139). -/
def LaneRegs.captureMinimum (r : LaneRegs) : Nat := if r.pmask = 0 then 9 else 14

/-- The words of a buffer that may hold intervals (R25). -/
def LaneRegs.captureCapacity (r : LaneRegs) (length : BitVec 12) : Nat :=
  length.toNat - Config.headerWords - (if r.pmask = 0 then 0 else Config.decodeWords)

/-- The frame that begins at an edge (R22). -/
def Frame.begin (e : EdgeStamp) (seq : Word) (disp : Disposition) : Frame :=
  { start := e.base, intervalStart := e.tick, inMark := true, total := 0, stored := 0,
    glitches := 0, seq := seq, disp := disp }

/-- The open record a kept frame makes (R25). Its counts are 0 until the close (DESIGN CHOICE, log 26). -/
def Record.open (d : Desc) (capacity : Nat) (seq dropped : Word) (start : Stamp) : Record :=
  { desc := d, capacity := capacity, seq := seq, droppedBefore := dropped, start := start,
    total := 0, stored := 0, glitches := 0, close := none, decoded := none, drained := 0,
    step := .drain }

/-- A frame begins: it takes a sequence number, and its disposition is decided (R22 to R25). -/
def Lane.beginFrame (l : Lane) (table : Eight Profile) (e : EdgeStamp) : LaneOut :=
  let enter (m : Lane) (disp : Disposition) : Lane :=
    { m with seq := l.seq + 1, cap.cstate := .inFrame, cap.waiting := false,
             cap.frame := some (Frame.begin e l.seq disp) }
  if 0 < l.skipCount then
    (enter { l with skipCount := l.skipCount - 1, dropped := l.dropped + 1, dropWhy := .skipped }
      .skipped).quiet
  else if 2 ≤ l.cap.records.length ∨ Config.fifoDepth ≤ l.fifo.length then
    (enter { l with dropped := l.dropped + 1, dropWhy := .noSlot } .dropped).quiet
  else
    match l.ring.bind l.regs.captureMinimum with
    | (some d, ring) =>
      (enter
        { l with
          ring := ring
          dropped := 0
          cap.records := l.cap.records ++
            [Record.open d (l.regs.captureCapacity d.length) l.seq l.dropped e.base]
          matchers := startMatchers table l.regs.pmask } .kept).requestFetch.quiet
    | (none, ring) =>
      (enter { l with ring := ring, dropped := l.dropped + 1, dropWhy := .noBuffer }
        .dropped).reportDry

/-- The frame time limit and the mark point as they stand when a mark begins: a frame whose limit has
passed closes as LONG in the happening that begins it (R34), and one whose mark point has been
reached closes as STUCK (R33). DESIGN CHOICE (log 5): LONG first. -/
def Lane.judgeMarkStart (l : Lane) (table : Eight Profile) (now : Stamp) : Lane :=
  match l.cap.frame with
  | none => l
  | some f =>
    if l.tlimitReached now f then l.closeFrame table f .long
    else if l.markReached now f then l.closeStuck table f
    else l

/-! ## Intervals (2.4) -/

/-- After an interval has been counted and, for a kept frame, fed to the matchers: the frame closes
as FULL if the total has reached MAXIV (R27). -/
def Lane.checkFull (l : Lane) (table : Eight Profile) (f : Frame) : Lane :=
  if f.total = l.regs.maxiv.toNat then l.closeFrame table f .full
  else { l with cap.frame := some f }

/-- An accepted edge in IN_FRAME ends the interval in progress (R27, R28). A value that has outgrown a
word, which only a late report brings, is kept modulo 2^16 (DESIGN CHOICE, log 18). -/
def Lane.endInterval (l : Lane) (table : Eight Profile) (active : Bool) (e : EdgeStamp)
    (f : Frame) : Lane :=
  let v := BitVec.ofNat 16 (tickDiff l.regs.div e.tick f.intervalStart)
  let f1 := { f with intervalStart := e.tick, inMark := active, total := f.total + 1 }
  let fed := { l with matchers := feedMatchers table v l.matchers }
  if f.disp = .kept then
    if f.stored < l.capacity then
      if fifoRoom l.fifo then
        { fed with fifo := l.fifo ++ [FifoEntry.interval v] }.checkFull table
          { f1 with stored := f.stored + 1 }
      else l.closeFrame table f1 .overrun
    else fed.checkFull table f1
  else l.checkFull table f1

/-! ## The end of the capture work (2.8) -/

/-- The assembler finishes when the lane is STOPPING, no frame is open and no record is left (R43). -/
def Lane.finishCapture (l : Lane) : LaneOut :=
  if l.regs.lmode = .capture ∧ l.cap.frame = none ∧ l.cap.records = [] then
    match l.life with
    | .stopping _ => { l with cap.cstate := .inactive, cap.waiting := false }.finishStopping
    | _ => l.quiet
  else l.quiet

/-! ## What the front end reports to the assembler -/

/-- An accepted edge reaches the assembler (R20, R21, R27). `active` tells an active-going edge. -/
def Lane.captureEdge (l : Lane) (table : Eight Profile) (now : Stamp) (active : Bool)
    (e : EdgeStamp) : LaneOut :=
  let l0 := { l with cap.waiting := false }
  match l.cap.cstate, l.cap.frame with
  | .listen, _ =>
    if active = true ∧ l.life = .running then
      (l0.beginFrame table e).next fun m => (m.judgeMarkStart table now).quiet
    else l0.quiet
  | .inFrame, some f =>
    let l1 := l0.endInterval table active e f
    let l2 :=
      match l1.cap.frame with
      | some g => if l1.markReached now g then l1.closeStuck table g else l1
      | none => l1
    l2.finishCapture
  | _, _ => l0.quiet

/-- An absorbed change reaches the assembler: the glitch is counted in an open frame (R29), and a
limit that waited for the change takes effect (R15, R20, R32, R33). -/
def Lane.captureGlitch (l : Lane) (table : Eight Profile) : LaneOut :=
  let l0 := { l with cap.waiting := false }
  match l.cap.cstate, l.cap.frame with
  | .inFrame, some f =>
    let g := { f with glitches := min 255 (f.glitches + 1) }
    let l1 := { l0 with cap.frame := some g }
    if l.cap.waiting then
      (if g.inMark then l1.closeStuck table g else l1.closeFrame table g .gap).finishCapture
    else l1.quiet
  | .arming, _ | .holdoff, _ =>
    if l.cap.waiting then { l0 with cap.cstate := .listen }.quiet else l0.quiet
  | _, _ => l0.quiet

/-- A limit point of the open frame is reached: with a change pending the decision waits (R15),
otherwise the frame closes (R32, R33). -/
def Lane.reachFramePoint (l : Lane) (table : Eight Profile) (f : Frame) : LaneOut :=
  if l.fe.change.isSome then { l with cap.waiting := true }.quiet
  else (if f.inMark then l.closeStuck table f else l.closeFrame table f .gap).finishCapture

/-- The wait point is reached: the assembler enters LISTEN, or waits for the change (R20). -/
def Lane.reachWaitPoint (l : Lane) : Lane :=
  if l.fe.change.isSome then { l with cap.waiting := true }
  else { l with cap.cstate := .listen, cap.waiting := false }

/-! ## Commands and faults -/

/-- START on a capture lane (R19). -/
def Lane.startCapture (l : Lane) (now : Stamp) : Lane :=
  let l1 := { l with cap := { Assembler.reset with cstate := .arming } }
  if l1.waitReached now then l1.reachWaitPoint else l1

/-- ABORT on a capture lane (R35). -/
def Lane.abortCapture (l : Lane) (table : Eight Profile) : LaneOut :=
  let l1 :=
    match l.cap.frame with
    | some f => l.closeFrame table f .aborted
    | none => l
  { l1 with cap.cstate := .inactive, cap.waiting := false }.finishCapture

/-- What abandoned work adds to the dropped counter: 1 and its dropped-before for each record of the
list and for a result in the slot (R41, R87, R126). -/
def Lane.abandonedCount (l : Lane) : Word :=
  l.cap.records.foldl (fun acc r => acc + 1 + r.droppedBefore) 0
    + (match l.result with
       | some r => 1 + r.droppedBefore
       | none => 0)

/-! ## The words of a frame record (R42, R63, R184) -/

/-- The close codes of R184. -/
def Close.code : Close → Word
  | .gap => 1
  | .full => 2
  | .stuck => 3
  | .long => 4
  | .overrun => 5
  | .aborted => 6
  | .complete => 7
  | .timeout => 8

/-- A flag at bit `k` of a word. -/
def flagAt (k : Nat) (b : Bool) : Word := if b then (1 : Word) <<< k else 0

/-- Low and high word of a 32-bit value (1.6). -/
def lowWord (v : Stamp) : Word := v.extractLsb' 0 16
def highWord (v : Stamp) : Word := v.extractLsb' 16 16

/-- A record's written length: 8 + stored words, and 5 more when DECODED (R37). -/
def Record.writtenLength (r : Record) : Nat :=
  Config.headerWords + r.stored + (if r.decoded.isSome then Config.decodeWords else 0)

/-- Word `k` of the header (R42, R184). -/
def Record.headerWord (r : Record) (k : Nat) : Word :=
  match k with
  | 0 =>
    let code : Word :=
      match r.close with
      | some c => c.code
      | none => 0
    1 ||| (code <<< 4) ||| flagAt 8 (decide (r.stored < r.total)) ||| flagAt 9 r.decoded.isSome
  | 1 => r.seq
  | 2 => r.droppedBefore
  | 3 => lowWord r.start
  | 4 => highWord r.start
  | 5 => BitVec.ofNat 16 r.total
  | 6 => BitVec.ofNat 16 r.stored
  | 7 => BitVec.ofNat 16 r.glitches
  | _ => 0

/-- Word `k` of the decode section (R63, R184). -/
def DecodeResult.sectionWord (d : DecodeResult) (k : Nat) : Word :=
  match k with
  | 0 =>
    BitVec.ofNat 16 d.profile.val ||| flagAt 4 d.isRepeat ||| (BitVec.ofNat 16 d.bits <<< 8)
  | k + 1 => wordOf d.value k

/-- Word `k` of the record's decode section; none is written for a record that is not DECODED. -/
def Record.decodeWord (r : Record) (k : Nat) : Word :=
  match r.decoded with
  | some d => d.sectionWord k
  | none => 0

end Sys2Proof.Machine
end

