-- ==== Sys2Proof/Machine/Meters.lean ====
section
/-! DEFINITION. The meter units (chapter 4): arming, counting, the end of a measurement, the result's
disposition and the words of a meter record. -/

namespace Sys2Proof.Machine

/-- A meter lane and the unit it holds after a step, and the events posted. -/
structure MeterOut where
  lane : Lane
  unit : MeterUnit
  posts : List Post
deriving DecidableEq, Repr

/-- MMODE names PERIOD (R182). -/
abbrev LaneRegs.measuresPeriod (r : LaneRegs) : Prop := r.mmode = 0

/-- An edge of this direction begins an item under MMODE (R75). -/
def LaneRegs.qualifies (r : LaneRegs) (active : Bool) : Bool :=
  if r.mmode = 0 ∨ r.mmode = 1 then active
  else if r.mmode = 2 then !active
  else false

/-- An edge of this direction ends an item under MMODE (R76, R77). -/
def LaneRegs.endsItem (r : LaneRegs) (active : Bool) : Bool :=
  if r.mmode = 0 then active
  else if r.mmode = 1 then !active
  else if r.mmode = 2 then active
  else false

/-- The start of a timeout at `now`; with MTIMEOUT 0 none runs (R79). -/
def LaneRegs.timeoutStart (r : LaneRegs) (now : Stamp) : Option Stamp :=
  if r.mtimeout = 0 then none else some now

/-- The timeout of the unit has been reached (R79). -/
def MeterUnit.timedOut (u : MeterUnit) (r : LaneRegs) (now : Stamp) : Bool :=
  match u.timeout with
  | some start => decide (limitReached now start r.mtimeout)
  | none => false

/-- Arming (R75). The fields R75 does not set are those of a free unit (DESIGN CHOICE, log 16). -/
def MeterUnit.arm (u : MeterUnit) (r : LaneRegs) (now : Stamp) : MeterUnit :=
  { MeterUnit.free with claim := u.claim, state := .armed, armTime := now,
                        timeout := r.timeoutStart now }

/-- Item 1 of a measurement begins at base stamp `at0` (R75, R80). -/
def MeterUnit.beginMeasurement (u : MeterUnit) (r : LaneRegs) (now at0 : Stamp) : MeterUnit :=
  { u with state := .counting, startStamp := at0, itemStart := at0, inItem := true,
           timeout := r.timeoutStart now }

/-- A completed item is taken into the measurement (R78). -/
def MeterUnit.addItem (u : MeterUnit) (item : Stamp) : MeterUnit :=
  let overflows := decide (2 ^ 32 ≤ u.total.toNat + item.toNat)
  { u with
    items := u.items + 1
    total := if overflows then 0xFFFFFFFF else u.total + item
    sat := u.sat || overflows
    minItem := if item < u.minItem then item else u.minItem
    maxItem := if u.maxItem < item then item else u.maxItem }

/-! ## The end of a measurement (4.4) -/

/-- The buffer minimum of a meter lane (R81, R139). -/
def LaneRegs.meterMinimum (r : LaneRegs) : Nat := if r.spread then 13 else 9

/-- The result a unit hands to the lane, bound to a descriptor (R80, R81, R83). -/
def MeterUnit.resultWith (u : MeterUnit) (r : LaneRegs) (unit : UnitId) (why : Close) (d : Desc)
    (seq dropped : Word) : MeterResult :=
  { desc := d, close := why, spread := r.spread && decide (1 ≤ u.items), sat := u.sat,
    mode := r.mmode, unit := unit, seq := seq, droppedBefore := dropped,
    start := if u.state = .armed then u.armTime else u.startStamp,
    items := u.items, total := u.total, minItem := u.minItem, maxItem := u.maxItem,
    step := .header1 }

/-- The disposition of a result (R81). -/
def Lane.disposeResult (l : Lane) (u : MeterUnit) (unit : UnitId) (why : Close) : LaneOut :=
  let l0 := { l with seq := l.seq + 1 }
  if 0 < l.skipCount then
    { l0 with skipCount := l.skipCount - 1, dropped := l.dropped + 1, dropWhy := .skipped }.quiet
  else if l.result.isSome then
    { l0 with dropped := l.dropped + 1, dropWhy := .noSlot }.quiet
  else
    match l.ring.bind l.regs.meterMinimum with
    | (some d, ring) =>
      { l0 with
        ring := ring
        dropped := 0
        result := some (u.resultWith l.regs unit why d l.seq l.dropped) }.requestFetch.quiet
    | (none, ring) =>
      { l0 with ring := ring, dropped := l.dropped + 1, dropWhy := .noBuffer }.reportDry

/-- A unit in M_RESULT whose lane's result slot is empty is released, and the lane's meter work is
finished (R72, R80, R84 to R86, R120). -/
def Lane.finishMeter (l : Lane) (u : MeterUnit) : MeterOut :=
  if u.state = .result ∧ l.result = none then
    match l.life with
    | .running => ⟨l.becomeStopped, .free, [(.laneStopped, 3)]⟩
    | _ => ⟨l.finishStopping.lane, .free, l.finishStopping.posts⟩
  else ⟨l, u, []⟩

/-- How the unit goes on after a measurement (R80). `edge` is the base stamp of the edge that ended
the last item. A chained measurement is never armed, and R80 does not say what becomes of its arming
time: it takes the count of the chaining happening, which no register or record shows (DESIGN CHOICE,
log 24). -/
def MeterUnit.goOn (u : MeterUnit) (l : Lane) (why : Close) (now edge : Stamp) : MeterUnit :=
  if l.life = .running ∧ l.regs.cont = true ∧ why ≠ .aborted then
    if l.regs.measuresPeriod ∧ why = .complete then
      (u.arm l.regs now).beginMeasurement l.regs now edge
    else u.arm l.regs now
  else { u with state := .result, timeout := none }

/-- A measurement ends: the result's disposition, the unit's way on, and the end of the lane's work
where it follows (R80, R81). -/
def Lane.endMeasurement (l : Lane) (u : MeterUnit) (unit : UnitId) (why : Close)
    (now edge : Stamp) : MeterOut :=
  let o := l.disposeResult u unit why
  let f := o.lane.finishMeter (u.goOn l why now edge)
  ⟨f.lane, f.unit, o.posts ++ f.posts⟩

/-! ## Counting (4.3) -/

/-- An item ends at an edge (R76, R77). -/
def Lane.endItem (l : Lane) (u : MeterUnit) (unit : UnitId) (now : Stamp) (e : EdgeStamp) :
    MeterOut :=
  let u1 := u.addItem (e.base - u.itemStart)
  if u1.items = l.regs.mcount.toNat then
    l.endMeasurement u1 unit .complete now e.base
  else if l.regs.measuresPeriod then
    ⟨l, { u1 with itemStart := e.base, timeout := l.regs.timeoutStart now }, []⟩
  else ⟨l, { u1 with inItem := false, timeout := l.regs.timeoutStart now }, []⟩

/-- An accepted edge reaches the unit (R75 to R77). -/
def Lane.meterEdge (l : Lane) (u : MeterUnit) (unit : UnitId) (now : Stamp) (active : Bool)
    (e : EdgeStamp) : MeterOut :=
  match u.state with
  | .armed =>
    if l.regs.qualifies active then ⟨l, u.beginMeasurement l.regs now e.base, []⟩
    else ⟨l, u, []⟩
  | .counting =>
    if u.inItem = true ∧ l.regs.endsItem active = true then l.endItem u unit now e
    else if u.inItem = false ∧ l.regs.qualifies active = true then
      ⟨l, { u with inItem := true, itemStart := e.base, timeout := l.regs.timeoutStart now }, []⟩
    else ⟨l, u, []⟩
  | _ => ⟨l, u, []⟩

/-! ## Stop and abort (4.6) -/

/-- STOP on a meter lane (R85). -/
def Lane.stopMeter (l : Lane) (u : MeterUnit) : MeterOut :=
  match u.state with
  | .armed => l.finishMeter { u with state := .result, timeout := none }
  | _ => ⟨l, u, []⟩

/-- ABORT on a meter lane (R86). -/
def Lane.abortMeter (l : Lane) (u : MeterUnit) (unit : UnitId) (now : Stamp) : MeterOut :=
  match u.state with
  | .armed | .counting => l.endMeasurement u unit .aborted now u.startStamp
  | _ => ⟨l, u, []⟩

/-! ## The words of a meter record (R83, R184) -/

/-- The record's written length (R82). -/
def MeterResult.writtenLength (r : MeterResult) : Nat := if r.spread then 13 else 9

/-- Word `k` of the record (R184). -/
def MeterResult.word (r : MeterResult) (k : Nat) : Word :=
  match k with
  | 0 => 2 ||| (r.close.code <<< 4) ||| flagAt 8 r.spread ||| flagAt 9 r.sat
  | 1 => r.seq
  | 2 => r.droppedBefore
  | 3 => lowWord r.start
  | 4 => highWord r.start
  | 5 => r.mode.zeroExtend 16 ||| (BitVec.ofNat 16 r.unit.val <<< 4)
  | 6 => BitVec.ofNat 16 r.items
  | 7 => lowWord r.total
  | 8 => highWord r.total
  | 9 => lowWord r.minItem
  | 10 => highWord r.minItem
  | 11 => lowWord r.maxItem
  | 12 => highWord r.maxItem
  | _ => 0

/-- The owner word of a meter record's write-back is acknowledged: the slot empties, METER_RECORD is
posted, and a unit waiting in M_RESULT is released (R82). -/
def Lane.resultDone (l : Lane) (u : MeterUnit) : MeterOut :=
  match l.result with
  | none => ⟨l, u, []⟩
  | some r =>
    let f := { l with result := none }.finishMeter u
    ⟨f.lane, f.unit, (.meterRecord, r.seq) :: f.posts⟩

/-- The next burst of the result once one of its HEADER bursts has ended (R82). -/
def MeterResult.advance (r : MeterResult) : MeterResult :=
  { r with step := match r.step with
      | .header1 => .header2
      | _ => .writeback }

end Sys2Proof.Machine
end

