-- ==== Sys2Proof/Machine/Replay.lean ====
section
/-! DEFINITION. The replay engine (chapter 5): taking a spare, the header check, filling, play-out,
the end of a record and its write-back, and the level at the pin. -/

namespace Sys2Proof.Machine

/-! ## The record -/

/-- The current record as it stands when its descriptor is taken, with passes completed 0 (R93). What its
header and play fields hold before the header is checked is a DESIGN CHOICE (log 25): R91 gives no value,
and no rule reads them. -/
def ReplayRecord.taken (d : Desc) : ReplayRecord :=
  { desc := d, kind := none, carrier := false, repeatCount := 0, gap := 0, count := 0,
    profile := 0, isRepeat := false, bitCount := 0, value := 0, passes := 0, fetched := 0,
    played := 0, playing := none, tickSeen := false, gapLeft := 0, carrierPhase := 0,
    carrierActive := false, stopRequested := false, endPending := false, loaded := [] }

/-- Passes the record is played: repeat count + 1 (R90). -/
def ReplayRecord.passCount (c : ReplayRecord) : Nat := c.repeatCount.toNat + 1

/-- The intervals of a CODE record's pass (R64, R65). -/
def ReplayRecord.codeIntervals (c : ReplayRecord) (table : Eight Profile) : List Word :=
  let p := (table.get c.profile).fields
  if c.isRepeat then p.repeatIntervals else p.dataIntervals c.bitCount.toNat c.value

/-- Intervals of a pass (R90, R64, R65). -/
def ReplayRecord.passLength (c : ReplayRecord) (table : Eight Profile) : Nat :=
  match c.kind with
  | some .code => (c.codeIntervals table).length
  | _ => c.count.toNat

/-- Intervals the FIFO must hold before a pass is played (R97). -/
def ReplayRecord.fillThreshold (c : ReplayRecord) : Nat := min c.count.toNat 16

/-- The current record replaced by `f` of it. -/
def Lane.mapCurrent (l : Lane) (f : ReplayRecord → ReplayRecord) : Lane :=
  { l with rep.current := l.rep.current.map f }

/-! ## Ending a record (5.8) -/

/-- A record ends with a status (R107). -/
def Lane.endRecord (l : Lane) (status : DescStatus) : Lane :=
  match l.rep.current with
  | none => l
  | some c =>
    { l with
      fifo := []
      rep := { rstate := .rWait, current := none,
               finished := some ⟨c.desc, c.kind, status, c.passes⟩ } }

/-- The replay work of a STOPPING lane finishes once it holds neither record (R111). -/
def Lane.finishReplay (l : Lane) : LaneOut :=
  if l.regs.lmode = .replay ∧ l.rep.current = none ∧ l.rep.finished = none then
    match l.life with
    | .stopping _ => { l with rep.rstate := .inactive }.finishStopping
    | _ => l.quiet
  else l.quiet

/-! ## Taking a spare (R93, R94) -/

/-- The descriptor `d` becomes the current record. An odd address or a length below 4 words ends it
at once (R94). -/
def Lane.takeRecord (l : Lane) (d : Desc) : Lane :=
  let l1 := { l with rep := { rstate := .rLoad, current := some (.taken d), finished := none } }
  if d.fits Config.replayHeaderWords then l1 else l1.endRecord .malformed

/-- The engine takes a held spare if all of R93's conditions hold; the ring controller may then fetch
the next one. -/
def Lane.takeSpare (l : Lane) : Lane :=
  match l.ring.slot with
  | .held d =>
    if l.regs.lmode = .replay ∧ l.life = .running ∧ l.rep.rstate = .rWait
        ∧ l.rep.finished = none then
      { l with ring.slot := .empty }.takeRecord d |>.requestFetch
    else l
  | _ => l

/-- The engine has come to R_WAIT at START or at a write-back: it takes a held spare, and one left
with none reports a dry ring (R93). -/
def Lane.seekSpare (l : Lane) : LaneOut :=
  let l1 := l.takeSpare
  if l1.life = .running ∧ l1.rep.rstate = .rWait ∧ l1.rep.finished = none then l1.reportDry
  else l1.quiet

/-- START on a replay lane (R92). -/
def Lane.startReplay (l : Lane) : LaneOut :=
  { l with rep := { rstate := .rWait, current := none, finished := none } }.seekSpare

/-! ## Loading (R94, R95) -/

/-- The header fields of the four words read (R185). The fields of word 2 are read for both kinds (DESIGN
CHOICE, log 25). -/
def ReplayRecord.readHeader (c : ReplayRecord) (w0 w1 w2 w3 : Word) : ReplayRecord :=
  { c with
    carrier := w0.getLsbD 4
    repeatCount := w3.extractLsb' 0 8
    gap := w1
    count := w2.extractLsb' 0 10
    profile := (w2.extractLsb' 0 3).toFin
    isRepeat := w2.getLsbD 4
    bitCount := w2.extractLsb' 8 7
    loaded := [] }

/-- The kind a header names; every other code is unknown (R185). -/
def headerKind (w0 : Word) : Option RKind :=
  if w0.extractLsb' 0 4 = 1 then some .intervals
  else if w0.extractLsb' 0 4 = 2 then some .code
  else none

/-- The checks of R95 on a header of this kind. -/
def ReplayRecord.headerFit (c : ReplayRecord) (kind : RKind) (p : Profile) : Bool :=
  decide (c.gap ≠ 0) &&
    match kind with
    | .intervals =>
      decide (c.count.toNat % 2 = 1
        ∧ Config.replayHeaderWords + c.count.toNat ≤ c.desc.length.toNat)
    | .code =>
      p.valid &&
        if c.isRepeat then p.fields.hasRepeat
        else decide (p.fields.bitMin.toNat ≤ c.bitCount.toNat
          ∧ c.bitCount.toNat ≤ p.fields.bitMax.toNat
          ∧ Config.replayHeaderWords + wordsForBits c.bitCount.toNat ≤ c.desc.length.toNat)

/-- The engine enters R_PLAY with no interval begun: the first one waits for the next base tick
(R99). -/
def Lane.enterPlay (l : Lane) : Lane :=
  let l1 := l.mapCurrent fun c => { c with played := 0, playing := none, tickSeen := false }
  { l1 with rep.rstate := .rPlay }

/-- The header is checked at the acknowledge of its fourth word (R95). -/
def Lane.checkHeader (l : Lane) (table : Eight Profile) (c : ReplayRecord) : Lane :=
  match c.loaded with
  | [w0, w1, w2, w3] =>
    let c1 := c.readHeader w0 w1 w2 w3
    match headerKind w0 with
    | none => l.endRecord .malformed
    | some kind =>
      if c1.headerFit kind (table.get c1.profile) then
        let l1 := { l with rep.current := some { c1 with kind := some kind } }
        match kind with
        | .intervals => { l1 with rep.rstate := .rFill }
        | .code => if c1.isRepeat then l1.enterPlay else l1
      else l.endRecord .malformed
  | _ => l

/-- A LOAD burst ends with its last acknowledge: the header is checked, or the value is held and the
engine enters R_PLAY (R95). -/
def Lane.loadDone (l : Lane) (table : Eight Profile) : Lane :=
  match l.rep.rstate, l.rep.current with
  | .rLoad, some c =>
    match c.kind with
    | none => l.checkHeader table c
    | some _ =>
      { l with rep.current := some { c with value := valueOf c.loaded, loaded := [] } }.enterPlay
  | _, _ => l

/-- A LOAD word is held by the engine; one whose record has ended is discarded (R107, R154). -/
def Lane.loadWord (l : Lane) (data : Word) : Lane :=
  l.mapCurrent fun c => { c with loaded := c.loaded ++ [data] }

/-! ## Filling (5.5) -/

/-- A FILL word enters the FIFO, and the engine leaves R_FILL at the threshold (R96, R97); a word
whose record has ended is discarded (R107). -/
def Lane.fillWord (l : Lane) (data : Word) : Lane :=
  match l.rep.current with
  | none => l
  | some c =>
    let l1 := { l with
      fifo := l.fifo ++ [FifoEntry.interval data]
      rep.current := some { c with fetched := c.fetched + 1 } }
    if l.rep.rstate = .rFill ∧ c.fillThreshold ≤ l1.fifo.length then l1.enterPlay else l1

/-- Words of the next FILL burst (R96, R153). -/
def ReplayRecord.fillWords (c : ReplayRecord) : Nat :=
  min Config.burstWords (c.count.toNat - c.fetched)

/-- A FILL request is ready (R96). -/
abbrev Lane.fillReady (l : Lane) (c : ReplayRecord) : Prop :=
  c.kind = some .intervals ∧ c.endPending = false ∧ c.fetched < c.count.toNat
    ∧ (l.rep.rstate = .rFill ∨ l.rep.rstate = .rPlay
      ∨ (l.rep.rstate = .rTrail ∧ c.passes + 1 < c.passCount ∧ c.stopRequested = false))
    ∧ l.fifo.length + c.fillWords ≤ Config.fifoDepth

/-! ## Play-out (5.6, 5.7) -/

/-- The record with an interval of `v` lane ticks begun (R99, R101). The carrier phase and level are set for
every interval, and count in a mark of a CARRIER record alone (DESIGN CHOICE, log 25). -/
def ReplayRecord.beginWith (c : ReplayRecord) (div : BitVec 3) (v : Word) : ReplayRecord :=
  { c with
    playing := some ⟨decide (c.played % 2 = 0), v, laneTicksToBase div v.toNat⟩
    played := c.played + 1
    carrierPhase := 0
    carrierActive := true }

/-- The next interval of the pass begins: from the head of the FIFO for an INTERVALS record, where a
zero interval ends the record as MALFORMED and an empty FIFO as UNDERRUN (R99, R104, R105), or from
the encoder for a CODE record (R103). -/
def Lane.beginInterval (l : Lane) (table : Eight Profile) (c : ReplayRecord) : Lane :=
  match c.kind with
  | some .code =>
    match (c.codeIntervals table)[c.played]? with
    | some v => { l with rep.current := some (c.beginWith l.regs.div v) }
    | none => l
  | _ =>
    match l.fifo with
    | .interval v :: rest =>
      let l1 := { l with fifo := rest, rep.current := some c }
      if v = 0 then l1.endRecord .malformed
      else { l1 with rep.current := some (c.beginWith l.regs.div v) }
    | _ => { l with rep.current := some c }.endRecord .underrun

/-- The first interval of a pass begins at the first base tick after the entry to R_PLAY (R99). A
record whose profile changed before it ends instead (DESIGN CHOICE, log 6). -/
def Lane.firstInterval (l : Lane) (table : Eight Profile) (c : ReplayRecord) : Lane :=
  if c.endPending then l.endRecord .profileChanged else l.beginInterval table c

/-- The last mark of a pass has ended: the trailing gap begins, and a further pass of an INTERVALS
record may be fetched ahead (R98, R102). -/
def Lane.beginTrail (l : Lane) (c : ReplayRecord) : Lane :=
  { l with
    rep.rstate := .rTrail
    rep.current := some { c with
      playing := none
      gapLeft := laneTicksToBase l.regs.div c.gap.toNat
      fetched := if c.passes + 1 < c.passCount then 0 else c.fetched } }

/-- The interval in progress ends (R99, R102, R104, R106). -/
def Lane.endPlaying (l : Lane) (table : Eight Profile) (c : ReplayRecord) : Lane :=
  if c.endPending then l.endRecord .profileChanged
  else if c.passLength table ≤ c.played then l.beginTrail c
  else l.beginInterval table c

/-- The trailing gap ends (R98, R102). -/
def Lane.endTrail (l : Lane) (table : Eight Profile) (c : ReplayRecord) : Lane :=
  let c1 := { c with passes := c.passes + 1, played := 0, playing := none, tickSeen := false }
  let l1 := { l with rep.current := some c1 }
  if c1.passes = c1.passCount then l1.endRecord .ok
  else if c1.stopRequested then l1.endRecord .stoppedEarly
  else if c1.kind = some .code ∨ c1.fillThreshold ≤ l.fifo.length then
    { l1 with rep.rstate := .rPlay }.beginInterval table c1
  else { l1 with rep.rstate := .rFill }

/-- A mark of the current record is in progress and driven as a carrier (R101). -/
def ReplayRecord.inCarrierMark (c : ReplayRecord) : Bool :=
  c.carrier &&
    match c.playing with
    | some p => p.isMark
    | none => false

/-- The carrier phase has reached CPER, or CHIGH in the active phase (R101). -/
abbrev Lane.carrierDue (l : Lane) (c : ReplayRecord) : Prop :=
  l.rep.rstate = .rPlay ∧ c.inCarrierMark = true ∧
    (l.regs.cper.toNat ≤ c.carrierPhase ∨
      (c.carrierActive = true ∧ l.regs.chigh.toNat ≤ c.carrierPhase))

/-- The carrier switches (R101): at CPER the phase returns to 0 and the mark goes active, at CHIGH it
goes to idle. -/
def ReplayRecord.switchCarrier (c : ReplayRecord) (cper : Word) : ReplayRecord :=
  if cper.toNat ≤ c.carrierPhase then
    { c with carrierPhase := c.carrierPhase - cper.toNat, carrierActive := true }
  else { c with carrierActive := false }

/-- A base tick at the engine: the interval in progress and the trailing gap run down, the carrier
phase counts, and a first interval becomes due (R99, R101, R102). -/
def ReplayRecord.tick (c : ReplayRecord) (st : RState) : ReplayRecord :=
  match st with
  | .rPlay =>
    match c.playing with
    | some p =>
      { c with playing := some { p with left := p.left - 1 }
               carrierPhase := if c.carrier && p.isMark then c.carrierPhase + 1
                               else c.carrierPhase }
    | none => { c with tickSeen := true }
  | .rTrail => { c with gapLeft := c.gapLeft - 1 }
  | _ => c

/-- `ReplayRecord.tick` on the lane. -/
def Lane.tick (l : Lane) : Lane := l.mapCurrent fun c => c.tick l.rep.rstate

/-! ## Stop, abort and a changed profile -/

/-- STOP on a replay lane (R109). -/
def Lane.stopReplay (l : Lane) : LaneOut :=
  match l.rep.rstate with
  | .rLoad | .rFill => (l.endRecord .stoppedEarly).quiet
  | .rPlay | .rTrail =>
    (l.mapCurrent fun c => if c.endPending then c else { c with stopRequested := true }).quiet
  | _ => l.finishReplay

/-- ABORT on a replay lane (R110). A record with end pending keeps PROFILE_CHANGED. -/
def Lane.abortReplay (l : Lane) : LaneOut :=
  match l.rep.current with
  | some c => (l.endRecord (if c.endPending then .profileChanged else .aborted)).quiet
  | none => l.finishReplay

/-- A COMMIT or CLEAR of profile `ix` ends the CODE record bound to it (R68, R106). -/
def Lane.profileChanged (l : Lane) (ix : ProfileIx) : Lane :=
  match l.rep.current with
  | some c =>
    if c.kind = some .code ∧ c.profile = ix then
      if l.rep.rstate = .rPlay then { l with rep.current := some { c with endPending := true } }
      else l.endRecord .profileChanged
    else l
  | none => l

/-- The status codes of R183. -/
def DescStatus.code : DescStatus → Word
  | .record => 1
  | .badBuffer => 2
  | .flushed => 3
  | .ok => 4
  | .malformed => 5
  | .underrun => 6
  | .aborted => 7
  | .stoppedEarly => 8
  | .profileChanged => 9

/-- The owner word of the finished record's write-back is acknowledged: REPLAY_DONE is posted, and the
lane finishes or the engine seeks its next spare (R108, R111, R93). The order of the events is
DEDUCED (log 12). -/
def Lane.replayDone (l : Lane) : LaneOut :=
  match l.rep.finished with
  | none => l.quiet
  | some f =>
    let l1 := { l with rep.finished := none }
    let o := l1.finishReplay.next Lane.seekSpare
    ⟨o.lane, (.replayDone, f.status.code) :: o.posts⟩

/-! ## The pin (R100) -/

/-- How the part presents a lane pin. -/
inductive PinDrive where
  | released
  | driven (level : Level)
deriving DecidableEq, Repr

/-- A mark is at the active level at this moment (R100, R101). -/
def Lane.marking (l : Lane) : Bool :=
  match l.rep.rstate, l.rep.current with
  | .rPlay, some c =>
    match c.playing with
    | some p => p.isMark && (!c.carrier || c.carrierActive)
    | none => false
  | _, _ => false

/-- What the part presents at the lane pin (R100). -/
def Lane.pin (l : Lane) : PinDrive :=
  if l.runs .replay then
    if l.marking then .driven l.regs.idle.flip
    else
      match l.regs.driveStyle with
      | .drive => .driven l.regs.idle
      | .release => .released
  else .released

end Sys2Proof.Machine
end

