-- ==== Sys2Proof/Machine/Bus.lean ====
section
/-! DEFINITION. The bus master and the transfer arbiter (chapter 8): the request a lane presents, the
choice at a grant, word cycles and their outcomes, the fault of a lane, and the resets of lanes and
part that the end of a word cycle can complete. -/

namespace Sys2Proof.Machine

/-! ## The request a lane presents (8.1) -/

/-- A transfer a lane presents (R148, R153). -/
structure Request where
  purpose : Purpose
  forRing : Bool
  base : Addr
  words : Nat
deriving DecidableEq, Repr

/-- The address of buffer word `k` (R153). -/
def bufferWord (base : Addr) (k : Nat) : Addr := base + BitVec.ofNat 24 (2 * k)

/-- The next step of the oldest open record, when it is ready (R37 to R41). -/
def Lane.captureRequest (l : Lane) : Option Request :=
  match l.cap.records with
  | [] => none
  | r :: _ =>
    match r.step with
    | .drain =>
      if 8 ≤ fifoLead l.fifo ∨ (r.close.isSome = true ∧ 1 ≤ fifoLead l.fifo) then
        some ⟨.drain, false, bufferWord r.desc.addr (Config.headerWords + r.drained),
          min Config.burstWords (fifoLead l.fifo)⟩
      else none
    | .decode =>
      some ⟨.decode, false, bufferWord r.desc.addr (Config.headerWords + r.stored),
        Config.decodeWords⟩
    | .header => some ⟨.header, false, r.desc.addr, Config.headerWords⟩
    | .writeback => some ⟨.writeback, false, l.ring.entryAddr r.desc.index, 2⟩

/-- The next step of the result in the result slot (R82). -/
def Lane.meterRequest (l : Lane) : Option Request :=
  match l.result with
  | none => none
  | some r =>
    match r.step with
    | .header1 => some ⟨.header, false, r.desc.addr, 8⟩
    | .header2 => some ⟨.header, false, bufferWord r.desc.addr 8, r.writtenLength - 8⟩
    | .writeback => some ⟨.writeback, false, l.ring.entryAddr r.desc.index, 2⟩

/-- A FILL of the current record, when ready (R96). -/
def Lane.fillRequest (l : Lane) : Option Request :=
  match l.rep.current with
  | none => none
  | some c =>
    if l.fillReady c then
      some ⟨.fill, false, bufferWord c.desc.addr (Config.replayHeaderWords + c.fetched), c.fillWords⟩
    else none

/-- A LOAD of the current record: its header, then the data words of a CODE DATA record (R94, R95). -/
def Lane.loadRequest (l : Lane) : Option Request :=
  match l.rep.rstate, l.rep.current with
  | .rLoad, some c =>
    match c.kind with
    | none => some ⟨.load, false, c.desc.addr, Config.replayHeaderWords⟩
    | some _ =>
      some ⟨.load, false, bufferWord c.desc.addr Config.replayHeaderWords,
        wordsForBits c.bitCount.toNat⟩
  | _, _ => none

/-- The WRITEBACK of the finished record (R108). -/
def Lane.finishedRequest (l : Lane) : Option Request :=
  match l.rep.finished with
  | none => none
  | some f => some ⟨.writeback, false, l.ring.entryAddr f.desc.index, 2⟩

/-- The return write-back of the ring controller (R139, R140). -/
def Lane.returnRequest (l : Lane) : Option Request :=
  match l.ring.ret with
  | none => none
  | some t => some ⟨.writeback, true, l.ring.entryAddr t.desc.index, 2⟩

/-- The spare FETCH (R136). -/
def Lane.fetchRequest (l : Lane) : Option Request :=
  match l.ring.slot with
  | .fetching i false _ => some ⟨.fetch, false, l.ring.entryAddr i, 4⟩
  | _ => none

/-- The transfer of the lane's engine that comes first (R148). -/
def Lane.engineRequest (l : Lane) : Option Request :=
  match l.regs.lmode with
  | .none => none
  | .capture => l.captureRequest
  | .meter => l.meterRequest
  | .replay => (l.fillRequest.or l.loadRequest).or l.finishedRequest

/-- The first ready transfer in the order of R148. -/
def Lane.request (l : Lane) : Option Request :=
  match l.life with
  | .running | .stopping _ => (l.engineRequest.or l.returnRequest).or l.fetchRequest
  | .flushing _ => l.returnRequest.or l.fetchRequest
  | .stopped => l.returnRequest
  | .faulted _ => none

/-- The class URGENT (R150). -/
def Lane.urgent (l : Lane) : Bool :=
  l.life.active &&
    match l.regs.lmode with
    | .capture => decide (24 ≤ l.fifo.length)
    | .replay =>
      decide (l.rep.rstate = .rPlay ∧ l.fifo.length ≤ 8) &&
        match l.rep.current with
        | some c => decide (c.kind = some .intervals ∧ c.fetched < c.count.toNat)
        | none => false
    | _ => false

/-- The burst in progress. -/
def BusMaster.burst (b : BusMaster) : Option Burst :=
  match b.bstate with
  | .owned burst => some burst
  | _ => none

/-- The burst in progress is one of lane `n`. -/
def BusMaster.serves (b : BusMaster) (n : LaneId) : Bool :=
  match b.burst with
  | some burst => decide (burst.lane = n)
  | none => false

/-- The request lane `n` presents: none while one of its bursts is in progress (R148). -/
def State.request (s : State) (n : LaneId) : Option Request :=
  if s.bus.serves n then none else (s.lane n).request

/-- Some lane presents a request. -/
def State.anyRequest (s : State) : Bool := Eight.numbers.any fun n => (s.request n).isSome

/-- An IDLE bus master raises its bus request when a lane presents a request, but not while a soft
reset is pending (R151, R160). -/
def State.raiseRequest (s : State) : State :=
  if s.bus.bstate = .idle ∧ s.ctl.resetPending = false ∧ s.anyRequest = true then
    { s with bus.bstate := .requesting }
  else s

/-! ## The grant (8.2) -/

/-- The lanes in the order the arbiter looks at them (R152). -/
def BusMaster.order (b : BusMaster) : List LaneId := Eight.numbers.map fun k => b.ptr + k

/-- The arbiter's choice: the first URGENT request from the pointer, else the first NORMAL one (R152). -/
def State.choose (s : State) : Option LaneId :=
  (s.bus.order.find? fun n => (s.request n).isSome && (s.lane n).urgent).or
    (s.bus.order.find? fun n => (s.request n).isSome)

/-! ## Word cycles (8.3) -/

/-- The direction of a burst (R153): true for a write. -/
def Purpose.isWrite : Purpose → Bool
  | .drain | .decode | .header | .writeback => true
  | .fetch | .fill | .load => false

/-- The address of word cycle `k` of a burst: ascending, but for a WRITEBACK, which writes word 3 of
the entry and then word 0 (R153, R183). -/
def cycleAddr (p : Purpose) (base : Addr) (k : Nat) : Addr :=
  match p with
  | .writeback => if k = 0 then bufferWord base 3 else base
  | _ => bufferWord base k

/-- The status a return write-back carries. -/
def ReturnStatus.status : ReturnStatus → DescStatus
  | .badBuffer => .badBuffer
  | .flushed => .flushed

/-- The two words of a WRITEBACK: the written length in [11:0], then owner HOST and the status (R140,
R183). -/
def writeBackWord (length : Nat) (st : DescStatus) (k : Nat) : Word :=
  if k = 0 then BitVec.ofNat 16 (length % 4096) else st.code

/-- The words of the engine's WRITEBACK (R41, R82, R108). -/
def Lane.engineWriteBack (l : Lane) (k : Nat) : Word :=
  match l.regs.lmode, l.cap.records, l.result, l.rep.finished with
  | .capture, r :: _, _, _ => writeBackWord r.writtenLength .record k
  | .meter, _, some r, _ => writeBackWord r.writtenLength .record k
  | .replay, _, _, some f => writeBackWord f.passes f.status k
  | _, _, _, _ => 0

/-- The word a write cycle takes from the lane when it begins (R154); 0 for a read, and where nothing is left
to write (DESIGN CHOICE, log 27). -/
def Lane.writeWord (l : Lane) (p : Purpose) (forRing : Bool) (k : Nat) : Word :=
  match p with
  | .drain => fifoHead l.fifo
  | .decode =>
    match l.cap.records with
    | r :: _ => r.decodeWord k
    | [] => 0
  | .header =>
    match l.regs.lmode, l.cap.records, l.result with
    | .capture, r :: _, _ => r.headerWord k
    | .meter, _, some r => r.word (if r.step = .header2 then 8 + k else k)
    | _, _, _ => 0
  | .writeback =>
    if forRing then
      match l.ring.ret with
      | some t => writeBackWord 0 t.status.status k
      | none => 0
    else l.engineWriteBack k
  | .fetch | .fill | .load => 0

/-- Word cycle `k` of a burst as it begins: its limit is RESPLIM at that moment (R154, R155). -/
def State.beginCycle (s : State) (n : LaneId) (p : Purpose) (forRing : Bool) (base : Addr)
    (k : Nat) : Cycle :=
  { addr := cycleAddr p base k, data := (s.lane n).writeWord p forRing k, elapsed := 0,
    limit := s.bus.resplim }

/-- The fetch of the slot has begun its burst (R136). -/
def Ring.grantFetch (r : Ring) : Ring :=
  match r.slot with
  | .fetching i _ ws => { r with slot := .fetching i true ws }
  | _ => r

/-- The chosen lane's burst begins, and the pointer moves past it (R152, R153, R154). -/
def State.beginBurst (s : State) (n : LaneId) (q : Request) : State :=
  let l := s.lane n
  let s1 := if q.purpose = .fetch then s.setLane n { l with ring := l.ring.grantFetch } else s
  let burst : Burst :=
    { lane := n, purpose := q.purpose, forRing := q.forRing, base := q.base, done := 0,
      remaining := q.words, orphan := false,
      cycle := s1.beginCycle n q.purpose q.forRing q.base 0 }
  { s1 with bus.ptr := n + 1, bus.bstate := .owned burst }

/-- The bus is released (R151). -/
def State.releaseBus (s : State) : State := { s with bus.bstate := .idle }

/-- The system grants the bus (R151, R152). A grant the bus master has not asked for is returned at
once (R160). -/
def State.grant (s : State) : State :=
  match s.bus.bstate with
  | .requesting =>
    match s.choose with
    | none => s.releaseBus
    | some n =>
      match s.request n with
      | none => s.releaseBus
      | some q => s.beginBurst n q
  | _ => s

/-! ## Steps of a lane that concern the meter pool -/

/-- The outcome of a step of lane `n` that holds meter unit `u`. -/
def State.putMeter (s : State) (n : LaneId) (u : UnitId) (o : MeterOut) : State :=
  ({ s with meters := s.meters.set u o.unit }.setLane n o.lane).postAll n o.posts

/-! ## Faults of a lane (6.4) -/

/-- The FCAUSE codes, which LANE_FAULT carries as well (R182, R186). -/
def FaultCause.code : FaultCause → Word
  | .noResponse => 1
  | .errorReply => 2
  | .descOwner => 3

/-- The ring controller at its lane's entry to FAULTED: a fetch is gone, the return slot abandoned, a
held spare kept (R137, R146). -/
def Ring.fault (r : Ring) : Ring :=
  { r with
    ret := none
    slot := match r.slot with
      | .held d => .held d
      | _ => .empty }

/-- A lane enters FAULTED (R126): its work is abandoned, and the abandoned records are counted. -/
def Lane.fault (l : Lane) (cause : FaultCause) : Lane :=
  { l with
    life := .faulted cause
    dropped := l.dropped + l.abandonedCount
    cap := .reset
    matchers := .fill .off
    fifo := []
    result := none
    rep := .reset
    ring := l.ring.fault }

/-- Lane `n` faults: its unit is released and LANE_FAULT is posted (R126). -/
def State.faultLane (s : State) (n : LaneId) (cause : FaultCause) : State :=
  ({ s with meters := s.meters.release n }.setLane n ((s.lane n).fault cause)).post
    ⟨.laneFault, some n, cause.code⟩

/-! ## The resets of a lane and of the part (6.5, 10.3) -/

/-- The burst of a reset lane ends after its current word cycle (R129, R159). -/
def BusMaster.orphan (b : BusMaster) (n : LaneId) : BusMaster :=
  match b.bstate with
  | .owned burst =>
    if burst.lane = n then
      let cut := { burst with remaining := 1, orphan := true }
      { b with bstate := .owned cut }
    else b
  | _ => b

/-- A lane reset of lane `n`, after which LRESULT reads `result` (R128). -/
def State.resetLane (s : State) (n : LaneId) (result : LResult) : State :=
  { s with meters := s.meters.release n, bus := s.bus.orphan n }.setLane n
    (.afterReset (s.lane n).line s.time.count result)

/-- The remaining steps of a soft reset take effect together (R179). -/
def State.completeSoftReset (s : State) : State :=
  { s with
    ctl.resetPending := false
    ctl.refused := false
    lanes := s.lanes.mapIdx fun _ l => .afterReset l.line s.time.count .none
    meters := .free
    bus := { BusMaster.reset with resplim := s.bus.resplim }
    queue := .reset }

/-- The values a device reset gives every block (R181). The commands that wait are no state of the
part; the lines are the board's. -/
def State.deviceReset (s : State) : State :=
  { State.reset with
    pending := s.pending
    lanes := s.lanes.mapIdx fun _ l => .afterReset l.line 0 .none }

/-! ## The outcomes of a word cycle -/

/-- A DRAIN word is acknowledged: its interval leaves the FIFO (R38, R39). -/
def Lane.drainWord (l : Lane) : Lane :=
  ({ l with fifo := l.fifo.tail }.mapOldest fun r => { r with drained := r.drained + 1 }).settleMarkers

/-- What an acknowledged word does to its lane (R154). -/
def Lane.takeWord (l : Lane) (p : Purpose) (data : Word) : Lane :=
  match p with
  | .fetch => l.fetchWord data
  | .drain => l.drainWord
  | .fill => l.fillWord data
  | .load => l.loadWord data
  | .decode | .header | .writeback => l

/-- A frame record is handed back: it leaves the list, FRAME_RECORD is posted, and the lane may
finish (R41, R43). -/
def Lane.recordDone (l : Lane) : LaneOut :=
  match l.cap.records with
  | [] => l.quiet
  | r :: rs =>
    let o := { l with cap.records := rs }.finishCapture
    ⟨o.lane, (.frameRecord, r.seq) :: o.posts⟩

/-- A HEADER burst has ended with its last acknowledge (R40, R82). -/
def Lane.headerDone (l : Lane) : Lane :=
  match l.regs.lmode with
  | .capture => l.mapOldest fun r => { r with step := .writeback }
  | .meter => { l with result := l.result.map MeterResult.advance }
  | _ => l

/-- The fetch of lane `n` completes (R137): a waiting replay engine takes the spare (R93), and a
descriptor owned by HOST faults the lane. -/
def State.fetchDone (s : State) (n : LaneId) : State :=
  let l := s.lane n
  match l.fetchedDesc with
  | none => s
  | some d =>
    match d.owner with
    | .device => s.setLane n (l.takeFetched d).takeSpare
    | .host => s.faultLane n .descOwner

/-- The owner word of a write-back of lane `n` is acknowledged (R41, R82, R108, R139). -/
def State.writeBackDone (s : State) (n : LaneId) (forRing : Bool) : State :=
  let l := s.lane n
  if forRing then s.putLane n l.returnDone
  else
    match l.regs.lmode with
    | .capture => s.putLane n l.recordDone
    | .meter =>
      match s.meters.heldBy n with
      | some u => s.putMeter n u (l.resultDone (s.meters.get u))
      | none => s
    | .replay => s.putLane n l.replayDone
    | .none => s

/-- The burst has ended with its last acknowledge, and its lane learns it (R154). -/
def State.burstDone (s : State) (b : Burst) : State :=
  let l := s.lane b.lane
  match b.purpose with
  | .fetch => s.fetchDone b.lane
  | .decode => s.setLane b.lane (l.mapOldest fun r => { r with step := .header })
  | .header => s.setLane b.lane l.headerDone
  | .writeback => s.writeBackDone b.lane b.forRing
  | .load => s.setLane b.lane (l.loadDone s.table)
  | .drain | .fill => s

/-- The next word cycle of burst `b` begins (R154). -/
def State.nextCycle (s : State) (b : Burst) : State :=
  let next := { b with
    done := b.done + 1
    remaining := b.remaining - 1
    cycle := s.beginCycle b.lane b.purpose b.forRing b.base (b.done + 1) }
  { s with bus.bstate := .owned next }

/-- The word cycle in progress is acknowledged, with `data` for a read (R154). While a soft reset is
pending the end of the cycle completes it (R179); a lane that has been reset learns nothing (R159). -/
def State.acknowledge (s : State) (data : Word) : State :=
  match s.bus.bstate with
  | .owned b =>
    if s.ctl.resetPending then s.completeSoftReset
    else if b.orphan then s.releaseBus.raiseRequest
    else
      let s1 := s.setLane b.lane ((s.lane b.lane).takeWord b.purpose data)
      if b.remaining ≤ 1 then (s1.releaseBus.burstDone b).raiseRequest
      else s1.nextCycle b
  | _ => s

/-- The fault record after burst `b` fails in its current cycle (R157). -/
def FaultRecord.capture (r : FaultRecord) (b : Burst) (errorReply : Bool) : FaultRecord :=
  if r.valid then { r with multi := true }
  else
    { r with valid := true, addr := b.cycle.addr, isWrite := b.purpose.isWrite, lane := b.lane,
             purpose := b.purpose, errorReply := errorReply }

/-- The word cycle in progress ends with ERROR_REPLY or NO_RESPONSE (R156). -/
def State.failCycle (s : State) (errorReply : Bool) : State :=
  match s.bus.bstate with
  | .owned b =>
    if s.ctl.resetPending then s.completeSoftReset
    else
      let s1 := { s with bus.fault := s.bus.fault.capture b errorReply }.releaseBus
      if b.orphan then s1.raiseRequest
      else
        (s1.faultLane b.lane (if errorReply then .errorReply else .noResponse)).raiseRequest
  | _ => s

/-! ## The bus commands -/

/-- BUS_GRANT (R151, R152). -/
def execBusGrant (s : State) : Host.Outcome State Fault Refusal := .next s.grant

/-- WORD_ACK (R154): whichever word cycle is in progress is acknowledged, with `data` for a read, and
with none in progress nothing changes (DESIGN CHOICE, log 15). -/
def execWordAck (data : Word) (s : State) : Host.Outcome State Fault Refusal :=
  .next (s.acknowledge data)

/-- FETCH_COMPLETE (R137): the acknowledge of the fourth word of a FETCH. -/
def execFetchComplete (data : Word) (s : State) : Host.Outcome State Fault Refusal :=
  match s.bus.bstate with
  | .owned b =>
    if b.purpose = .fetch ∧ b.done = 3 then .next (s.acknowledge data) else .next s
  | _ => .next s

/-- WRITE_BACK (R140): the acknowledge of the owner/status word of a write-back. -/
def execWriteBack (s : State) : Host.Outcome State Fault Refusal :=
  match s.bus.bstate with
  | .owned b =>
    if b.purpose = .writeback ∧ b.done = 1 then .next (s.acknowledge 0) else .next s
  | _ => .next s

/-- ERROR_REPLY (R156). With no word cycle in progress it changes nothing (DESIGN CHOICE, log 15). -/
def execErrorReply (s : State) : Host.Outcome State Fault Refusal := .next (s.failCycle true)

/-- The response limit of the word cycle in progress has passed (R155). -/
def BusMaster.responseDue (b : BusMaster) : Bool :=
  match b.burst with
  | some burst => decide (burst.cycle.limit.toNat ≤ burst.cycle.elapsed)
  | none => false

/-- NO_RESPONSE (R155, R156): the limit the word cycle in progress began with has passed with no reply. A
report that comes before it, or with no word cycle in progress, changes nothing (DESIGN CHOICE, log 1). -/
def execNoResponse (s : State) : Host.Outcome State Fault Refusal :=
  if s.bus.responseDue then .next (s.failCycle false) else .next s

/-- SOFT_RESET_COMPLETE (R179): the word cycle in progress ends while a soft reset is pending (DESIGN
CHOICE, log 15). -/
def execSoftResetComplete (s : State) : Host.Outcome State Fault Refusal :=
  if s.ctl.resetPending then .next s.completeSoftReset else .next s

end Sys2Proof.Machine
end

