-- ==== Sys2Proof/Machine/FrontEnd.lean ====
section
/-! DEFINITION. The lane front end (chapter 1): transitions, the glitch filter and the delivery of
edges, with the commands TRANSITION and EDGE_ACCEPTED. -/

namespace Sys2Proof.Machine

/-- The front end samples its pin: LMODE is CAPTURE or METER (R8). -/
def LMode.samples : LMode → Bool
  | .capture | .meter => true
  | .none | .replay => false

/-- The front end resynchronised to the pin with tick length `div` (R7). -/
def FrontEnd.resync (line : Level) (div : BitVec 3) (now : Stamp) : FrontEnd :=
  { sampled := line, filtered := line, change := none, lastEdge := EdgeStamp.at div now }

/-- A sample differs from the one before (R8): it begins a pending change (R9) or absorbs the one
pending, with a glitch report to the assembler (R11, R29). A lane whose front end does not sample
has only its line changed (DESIGN CHOICE, log 3). -/
def Lane.seeTransition (l : Lane) (table : Eight Profile) (now : Stamp) : LaneOut :=
  if l.regs.lmode.samples then
    let level := l.fe.sampled.flip
    match l.fe.change with
    | none =>
      { l with
        line := level
        fe.sampled := level
        fe.change := some ⟨EdgeStamp.at l.regs.div now, level⟩ }.quiet
    | some _ =>
      let l1 := { l with line := level, fe.sampled := level, fe.change := none }
      if l1.runs .capture then l1.captureGlitch table else l1.quiet
  else { l with line := l.line.flip }.quiet

/-- The time a change must last: MINW lane ticks, or 1 while MINW holds 0 (R7, R10). -/
def LaneRegs.filterWidth (r : LaneRegs) : Nat := max 1 r.minw.toNat

/-- The pending change has reached its confirmation time (R10). -/
abbrev Lane.confirmed (l : Lane) (now : Stamp) (c : Change) : Prop :=
  l.regs.filterWidth ≤ tickDiff l.regs.div (l.nowTick now) c.stamp.tick

/-- The front end takes the pending change (R10). -/
def Lane.acceptChange (l : Lane) (c : Change) : Lane :=
  { l with fe := { l.fe with filtered := c.level, change := none, lastEdge := c.stamp } }

/-- An accepted edge is active-going (R13). -/
abbrev Lane.activeGoing (l : Lane) (c : Change) : Bool := decide (c.level ≠ l.regs.idle)

/-- The acceptance of lane `n`'s pending change and its delivery to the engine at work (R10, R14). -/
def State.acceptEdge (s : State) (n : LaneId) (c : Change) : State :=
  let l := (s.lane n).acceptChange c
  let active := l.activeGoing c
  if l.life.active then
    match l.regs.lmode with
    | .capture => s.putLane n (l.captureEdge s.table s.time.count active c.stamp)
    | .meter =>
      match s.meters.heldBy n with
      | some u => s.putMeter n u (l.meterEdge (s.meters.get u) u s.time.count active c.stamp)
      | none => s.setLane n l
    | _ => s.setLane n l
  else s.setLane n l

/-- EDGE_ACCEPTED is due: a pending change has lasted MINW lane ticks (R10), and the timebase counts
(R12). -/
def State.edgeDue (s : State) (n : LaneId) : Bool :=
  match (s.lane n).fe.change with
  | some c => s.ctl.enable && decide ((s.lane n).confirmed s.time.count c)
  | none => false

/-- TRANSITION (R9, R11). -/
def execTransition (n : LaneId) (s : State) : Host.Outcome State Fault Refusal :=
  .next (s.putLane n ((s.lane n).seeTransition s.table s.time.count)).raiseRequest

/-- EDGE_ACCEPTED (R10). -/
def execEdgeAccepted (n : LaneId) (s : State) : Host.Outcome State Fault Refusal :=
  match (s.lane n).fe.change with
  | some c => if s.edgeDue n then .next (s.acceptEdge n c).raiseRequest else .next s
  | none => .next s

end Sys2Proof.Machine
end

