-- ==== Sys2Proof/Machine/Operands.lean ====
section
/-! DEFINITION. What a written word carries: the fields of each register at the bit positions of R182.
Bits the map does not name are ignored (R174). -/

namespace Sys2Proof.Machine

/-- A level from its code (R182). -/
def Level.ofBit (b : Bool) : Level := if b then .high else .low

/-- LMODE from its code (R182). -/
def LMode.ofCode (c : BitVec 2) : LMode :=
  if c = 0 then .none
  else if c = 1 then .capture
  else if c = 2 then .meter
  else .replay

/-- LCFG (R7, R182). -/
def LaneRegs.withLcfg (r : LaneRegs) (w : Word) : LaneRegs :=
  { r with
    lmode := LMode.ofCode (w.extractLsb' 0 2)
    idle := Level.ofBit (w.getLsbD 2)
    driveStyle := if w.getLsbD 3 then .drive else .release
    div := w.extractLsb' 4 3
    minw := w.extractLsb' 8 8 }

/-- LMCFG (R73, R182). -/
def LaneRegs.withLmcfg (r : LaneRegs) (w : Word) : LaneRegs :=
  { r with mmode := w.extractLsb' 0 2, cont := w.getLsbD 2, spread := w.getLsbD 3 }

/-- The low word of RBASE: its low 3 bits are stored as 0 (R130). -/
def rbaseLow (old : Addr) (w : Word) : Addr :=
  old.extractLsb' 16 8 ++ (w &&& 0xFFF8)

/-- The high word of RBASE: address [23:16] in [7:0] (R182). -/
def rbaseHigh (old : Addr) (w : Word) : Addr :=
  w.extractLsb' 0 8 ++ old.extractLsb' 0 16

/-- PFLAGS (R47, R182). -/
def ProfileFields.withFlags (p : ProfileFields) (w : Word) : ProfileFields :=
  { p with hasLead := w.getLsbD 0, hasRepeat := w.getLsbD 1, msbFirst := w.getLsbD 2 }

/-- PBITS (R47, R182). -/
def ProfileFields.withBits (p : ProfileFields) (w : Word) : ProfileFields :=
  { p with bitMin := w.extractLsb' 0 8, bitMax := w.extractLsb' 8 8 }

/-- One word of a triple: MIN, NOM and MAX in three ascending words (R47, R182). -/
def Triple.withWord (t : Triple) (k : Nat) (w : Word) : Triple :=
  match k with
  | 0 => { t with min := w }
  | 1 => { t with nom := w }
  | 2 => { t with max := w }
  | _ => t

/-- Word `k` of the eight triples, counted from PLMK (R182). -/
def ProfileFields.withTripleWord (p : ProfileFields) (k : Nat) (w : Word) : ProfileFields :=
  match k / 3 with
  | 0 => { p with leadMark := p.leadMark.withWord (k % 3) w }
  | 1 => { p with leadSpace := p.leadSpace.withWord (k % 3) w }
  | 2 => { p with repeatSpace := p.repeatSpace.withWord (k % 3) w }
  | 3 => { p with zeroMark := p.zeroMark.withWord (k % 3) w }
  | 4 => { p with zeroSpace := p.zeroSpace.withWord (k % 3) w }
  | 5 => { p with oneMark := p.oneMark.withWord (k % 3) w }
  | 6 => { p with oneSpace := p.oneSpace.withWord (k % 3) w }
  | 7 => { p with stopMark := p.stopMark.withWord (k % 3) w }
  | _ => p

/-- A write to staging word `k`, counted from PFLAGS at 0x080 (R47, R182). -/
def ProfileFields.withStagingWord (p : ProfileFields) (k : Nat) (w : Word) : ProfileFields :=
  match k with
  | 0 => p.withFlags w
  | 1 => p.withBits w
  | k + 2 => p.withTripleWord k w

/-- The command code of an LCMD write (R182). -/
def lcmdCode (w : Word) : BitVec 4 := w.extractLsb' 0 4

/-- The argument of an LCMD write (R182). -/
def lcmdArg (w : Word) : BitVec 12 := w.extractLsb' 4 12

/-- PRESCALE in a written word (R182). -/
def prescaleField (w : Word) : BitVec 9 := w.extractLsb' 0 9

/-- RESPLIM in a written word (R161). -/
def resplimField (w : Word) : BitVec 12 := w.extractLsb' 0 12

/-- ITHRESH in a written word (R182). -/
def ithreshField (w : Word) : BitVec 6 := w.extractLsb' 8 6

/-- The LCMD codes that name a command (R182). -/
abbrev lcmdKnown (code : BitVec 4) : Prop := 1 ≤ code ∧ code ≤ 7

/-- The GCMD codes that name a command (R178), and the PCMD codes that name a request (R182). -/
abbrev threeKnown (code : BitVec 4) : Prop := 1 ≤ code ∧ code ≤ 3

end Sys2Proof.Machine
end

