-- ==== Sys2Proof/Machine/Device.lean ====
section
/-! DEFINITION. Device control (chapter 10), the timebase, the event queue's registers and the fault
record's: DEVICE_RESET, BASE_TICK, the GCMD commands and the writes of the global registers. -/

namespace Sys2Proof.Machine

/-! ## Time (R1, R2) -/

/-- A base tick: the count increments, the phase returns to 0 (R1, R2), and the replay engines count
it (R99, R101). -/
def State.tick (s : State) : State :=
  { s with
    time.count := s.time.count + 1
    time.phase := 0
    lanes := s.lanes.mapIdx fun _ l => l.tick }

/-- `clocks` core clocks pass in the word cycle in progress (R155). -/
def BusMaster.clock (b : BusMaster) (clocks : Nat) : BusMaster :=
  match b.bstate with
  | .owned burst =>
    let later := { burst with cycle.elapsed := burst.cycle.elapsed + clocks }
    { b with bstate := .owned later }
  | _ => b

/-- DEVICE_RESET (R181), assertion and release in one (DESIGN CHOICE, log 21). -/
def execDeviceReset (s : State) : Host.Outcome State Fault Refusal := .next s.deviceReset

/-- BASE_TICK (R2): the core clocks that bring the phase to PRESCALE have passed (DESIGN CHOICE, log
4). While ENABLE is 0 no base tick occurs (R1). -/
def execBaseTick (s : State) : Host.Outcome State Fault Refusal :=
  if s.ctl.enable then
    .next { s with bus := s.bus.clock (s.time.prescale.toNat - s.time.phase) }.tick
  else .next s

/-! ## CONTROL, PRESC and RESPLIM -/

/-- Some lane is RUNNING, STOPPING or FLUSHING (R177). -/
def State.laneBusy (s : State) : Bool := Eight.numbers.any fun n => (s.lane n).life.fetches

/-- A write to CONTROL (R177, R2). -/
def State.writeControl (s : State) (w : Word) : State :=
  if w.getLsbD 0 = s.ctl.enable then s.taken
  else if w.getLsbD 0 then { s.taken with ctl.enable := true, time.phase := 0 }
  else if s.laneBusy then s.refuse
  else { s.taken with ctl.enable := false, time.phase := 0 }

/-- A write to PRESC (R2). -/
def State.writePresc (s : State) (w : Word) : State :=
  if s.ctl.enable = true ∨ prescaleField w = 0 ∨ 256 < (prescaleField w).toNat then s.refuse
  else { s.taken with time.prescale := prescaleField w }

/-- A write to RESPLIM (R161). -/
def State.writeResplim (s : State) (w : Word) : State :=
  if (resplimField w).toNat < 16 then s.refuse else { s.taken with bus.resplim := resplimField w }

/-! ## The event queue's registers (R167, R170, R171) -/

/-- A write to IRQCTL (R170). -/
def State.writeIrqctl (s : State) (w : Word) : State :=
  if ithreshField w = 0 ∨ 32 < (ithreshField w).toNat then s.refuse
  else { s.taken with queue.ie := w.getLsbD 0, queue.ithresh := ithreshField w }

/-- A write to IRQHOLD (R170, R171). -/
def State.writeIrqhold (s : State) (w : Word) : State :=
  let q := { s.queue with ihold := w }
  { s with queue := { q with timer := if w = 0 then none
                                      else if q.entries = [] then q.timer
                                      else q.startTimer s.time.count } }

/-- A word write to EVQPOP (R167). -/
def State.popEvent (s : State) : State := { s with queue := s.queue.pop s.time.count }

/-- A write to FCLR (R158). -/
def State.clearFault (s : State) : State :=
  { s with bus.fault.valid := false, bus.fault.multi := false }

/-! ## GCMD (R178, R179) -/

/-- SNAP (R4). -/
def State.snap (s : State) : State := { s.taken with time.tsnap := s.time.count }

/-- NOTE (R165). -/
def State.note (s : State) : State := s.taken.post ⟨.note, none, s.ctl.garg⟩

/-- SOFT_RESET (R179, R160): with no word cycle in progress the reset is complete in this happening,
and otherwise the burst ends with its current cycle. -/
def State.softReset (s : State) : State :=
  match s.bus.bstate with
  | .owned b =>
    let cut := { b with remaining := 1 }
    { s.taken with ctl.resetPending := true, bus.bstate := .owned cut }
  | _ => s.completeSoftReset

/-- A write to GCMD (R178). -/
def State.globalCommand (s : State) (code : BitVec 4) : State :=
  if code = 1 then s.snap
  else if code = 2 then s.note
  else if code = 3 then s.softReset
  else s.refuse

/-! ## The commands -/

/-- GCMD SNAP (R4). -/
def execSnap (s : State) : Host.Outcome State Fault Refusal := .next (s.hostWrite State.snap)

/-- GCMD NOTE (R165). -/
def execNote (s : State) : Host.Outcome State Fault Refusal := .next (s.hostWrite State.note)

/-- GCMD SOFT_RESET (R179). -/
def execSoftReset (s : State) : Host.Outcome State Fault Refusal :=
  .next (s.hostWrite State.softReset)

/-- A GCMD write with an unknown command (R178). A code that names a command spells that command's
row, and changes nothing here (DESIGN CHOICE, log 1). -/
def execGcmdUnknown (code : BitVec 4) (s : State) : Host.Outcome State Fault Refusal :=
  if threeKnown code then .next s else .next (s.hostWrite State.refuse)

/-- CONTROL_WRITE (R177). -/
def execControlWrite (w : Word) (s : State) : Host.Outcome State Fault Refusal :=
  .next (s.hostWrite fun t => t.writeControl w)

/-- PRESC_WRITE (R2). -/
def execPrescWrite (w : Word) (s : State) : Host.Outcome State Fault Refusal :=
  .next (s.hostWrite fun t => t.writePresc w)

/-- RESPLIM_WRITE (R161). -/
def execResplimWrite (w : Word) (s : State) : Host.Outcome State Fault Refusal :=
  .next (s.hostWrite fun t => t.writeResplim w)

/-- IRQCTL_WRITE (R170). -/
def execIrqctlWrite (w : Word) (s : State) : Host.Outcome State Fault Refusal :=
  .next (s.hostWrite fun t => t.writeIrqctl w)

/-- IRQHOLD_WRITE (R171). -/
def execIrqholdWrite (w : Word) (s : State) : Host.Outcome State Fault Refusal :=
  .next (s.hostWrite fun t => t.writeIrqhold w)

/-- EVQPOP (R167): the oldest event is removed, whatever value is written. -/
def execEvqpop (_w : Word) (s : State) : Host.Outcome State Fault Refusal :=
  .next (s.hostWrite State.popEvent)

/-- FCLR (R158): VALID and MULTI are cleared, whatever value is written. -/
def execFclr (_w : Word) (s : State) : Host.Outcome State Fault Refusal :=
  .next (s.hostWrite State.clearFault)

end Sys2Proof.Machine
end

