-- ==== Sys2Proof/Machine/Limits.lean ====
section
/-! DEFINITION. The limit points and expiries of the capture and meter engines and of the interrupt
holdoff: WAIT_POINT_REACHED, GAP_POINT_REACHED, MARK_POINT_REACHED, TLIMIT_EXPIRY, MTIMEOUT_EXPIRY and
HOLDOFF_EXPIRY. A report that is not due changes nothing (DESIGN CHOICE, log 1). -/

namespace Sys2Proof.Machine

/-- The idle wait has reached its wait point in ARMING or HOLDOFF (R20). -/
def Lane.waitDue (l : Lane) (now : Stamp) : Bool :=
  decide (l.runs .capture ∧ (l.cap.cstate = .arming ∨ l.cap.cstate = .holdoff)
    ∧ l.cap.waiting = false ∧ l.waitReached now)

/-- The open frame of a capture lane at work. -/
def Lane.openFrame (l : Lane) : Option Frame :=
  if l.runs .capture ∧ l.cap.cstate = .inFrame then l.cap.frame else none

/-- The gap point has been reached and not yet judged (R32). -/
def Lane.gapDue (l : Lane) (now : Stamp) (f : Frame) : Bool :=
  decide (l.cap.waiting = false ∧ l.gapReached now f)

/-- The mark point has been reached and not yet judged (R33). -/
def Lane.markDue (l : Lane) (now : Stamp) (f : Frame) : Bool :=
  decide (l.cap.waiting = false ∧ l.markReached now f)

/-- The meter unit whose timeout has been reached while it holds a measurement (R79). -/
def State.timedOutUnit (s : State) (n : LaneId) : Option UnitId :=
  let l := s.lane n
  if l.runs .meter then
    match s.meters.heldBy n with
    | some u =>
      let m := s.meters.get u
      if (m.state = .armed ∨ m.state = .counting) ∧ m.timedOut l.regs s.time.count = true then some u
      else none
    | none => none
  else none

/-- WAIT_POINT_REACHED (R20). -/
def execWaitPointReached (n : LaneId) (s : State) : Host.Outcome State Fault Refusal :=
  let l := s.lane n
  if l.waitDue s.time.count then .next (s.setLane n l.reachWaitPoint) else .next s

/-- GAP_POINT_REACHED (R32). -/
def execGapPointReached (n : LaneId) (s : State) : Host.Outcome State Fault Refusal :=
  let l := s.lane n
  match l.openFrame with
  | some f =>
    if l.gapDue s.time.count f then .next (s.putLane n (l.reachFramePoint s.table f)).raiseRequest
    else .next s
  | none => .next s

/-- MARK_POINT_REACHED (R33). -/
def execMarkPointReached (n : LaneId) (s : State) : Host.Outcome State Fault Refusal :=
  let l := s.lane n
  match l.openFrame with
  | some f =>
    if l.markDue s.time.count f then .next (s.putLane n (l.reachFramePoint s.table f)).raiseRequest
    else .next s
  | none => .next s

/-- TLIMIT_EXPIRY (R34): the limit does not wait for the glitch filter. -/
def execTlimitExpiry (n : LaneId) (s : State) : Host.Outcome State Fault Refusal :=
  let l := s.lane n
  match l.openFrame with
  | some f =>
    if l.tlimitReached s.time.count f then
      .next (s.putLane n (l.closeFrame s.table f .long).finishCapture).raiseRequest
    else .next s
  | none => .next s

/-- MTIMEOUT_EXPIRY (R79). -/
def execMtimeoutExpiry (n : LaneId) (s : State) : Host.Outcome State Fault Refusal :=
  match s.timedOutUnit n with
  | some u =>
    .next (s.putMeter n u
      ((s.lane n).endMeasurement (s.meters.get u) u .timeout s.time.count 0)).raiseRequest
  | none => .next s

/-- The running holdoff timer has reached its limit (R171). -/
def EventQueue.holdoffDue (q : EventQueue) (now : Stamp) : Bool :=
  match q.timer with
  | some t => decide (limitReached now t.start t.length)
  | none => false

/-- HOLDOFF_EXPIRY (R171): the latch is set and the timer stops. -/
def execHoldoffExpiry (s : State) : Host.Outcome State Fault Refusal :=
  if s.queue.holdoffDue s.time.count then
    .next { s with queue.expired := true, queue.timer := none }
  else .next s

end Sys2Proof.Machine
end

