-- ==== Sys2Proof/Machine/PlayOut.lean ====
section
/-! DEFINITION. The timed happenings of the replay engine: FIRST_INTERVAL_BEGIN, INTERVAL_END,
TRAILING_GAP_END and CARRIER_PHASE. A report that is not due changes nothing (DESIGN CHOICE, log 1). -/

namespace Sys2Proof.Machine

/-- A first interval is due: the engine is in R_PLAY with none begun, and a base tick has come (R99). -/
def Lane.firstDue (l : Lane) (c : ReplayRecord) : Bool :=
  decide (l.rep.rstate = .rPlay ∧ c.playing = none) && c.tickSeen

/-- The interval in progress has run down (R99). -/
def Lane.intervalDue (l : Lane) (c : ReplayRecord) : Bool :=
  decide (l.rep.rstate = .rPlay) &&
    match c.playing with
    | some p => decide (p.left = 0)
    | none => false

/-- The trailing gap has run down (R102). -/
def Lane.trailDue (l : Lane) (c : ReplayRecord) : Bool :=
  decide (l.rep.rstate = .rTrail ∧ c.gapLeft = 0)

/-- FIRST_INTERVAL_BEGIN (R99). -/
def execFirstIntervalBegin (n : LaneId) (s : State) : Host.Outcome State Fault Refusal :=
  let l := s.lane n
  match l.rep.current with
  | some c =>
    if l.firstDue c then .next (s.setLane n (l.firstInterval s.table c)).raiseRequest else .next s
  | none => .next s

/-- INTERVAL_END (R99). -/
def execIntervalEnd (n : LaneId) (s : State) : Host.Outcome State Fault Refusal :=
  let l := s.lane n
  match l.rep.current with
  | some c =>
    if l.intervalDue c then .next (s.setLane n (l.endPlaying s.table c)).raiseRequest else .next s
  | none => .next s

/-- TRAILING_GAP_END (R102). -/
def execTrailingGapEnd (n : LaneId) (s : State) : Host.Outcome State Fault Refusal :=
  let l := s.lane n
  match l.rep.current with
  | some c =>
    if l.trailDue c then .next (s.setLane n (l.endTrail s.table c)).raiseRequest else .next s
  | none => .next s

/-- CARRIER_PHASE (R101). -/
def execCarrierPhase (n : LaneId) (s : State) : Host.Outcome State Fault Refusal :=
  let l := s.lane n
  match l.rep.current with
  | some c =>
    if l.carrierDue c then
      .next (s.setLane n { l with rep.current := some (c.switchCarrier l.regs.cper) })
    else .next s
  | none => .next s

end Sys2Proof.Machine
end

