-- ==== Sys2Proof/Machine/Clock.lean ====
section
/-! DEFINITION. What the block does with no command waiting: it takes a happening that has come due, or
else lets one core clock pass (DESIGN CHOICE, log 8). -/

namespace Sys2Proof.Machine

/-- The happening of the replay engine that is due. -/
def Lane.dueReplay (l : Lane) (n : LaneId) : Option Instr :=
  match l.rep.current with
  | none => none
  | some c =>
    if l.firstDue c then some (.firstIntervalBegin n)
    else if l.intervalDue c then some (.intervalEnd n)
    else if l.trailDue c then some (.trailingGapEnd n)
    else if l.carrierDue c then some (.carrierPhase n)
    else none

/-- The happening of the frame assembler that is due. -/
def Lane.dueCapture (l : Lane) (now : Stamp) (n : LaneId) : Option Instr :=
  match l.openFrame with
  | some f =>
    if l.gapDue now f then some (.gapPointReached n)
    else if l.markDue now f then some (.markPointReached n)
    else if l.tlimitReached now f then some (.tlimitExpiry n)
    else none
  | none => if l.waitDue now then some (.waitPointReached n) else none

/-- The happening of lane `n` that is due. -/
def State.dueLane (s : State) (n : LaneId) : Option Instr :=
  if s.edgeDue n then some (.edgeAccepted n)
  else if (s.timedOutUnit n).isSome then some (.mtimeoutExpiry n)
  else ((s.lane n).dueCapture s.time.count n).or ((s.lane n).dueReplay n)

/-- The happening that is due, in the order the model takes those of one moment (DESIGN CHOICE, log
8): the lanes in rising order, then the interrupt holdoff, then the response limit. -/
def State.due (s : State) : Option Instr :=
  (Eight.numbers.findSome? fun n => s.dueLane n).or
    (if s.queue.holdoffDue s.time.count then some .holdoffExpiry
     else if s.bus.responseDue then some .noResponse
     else none)

/-- One core clock (R2, R155): the word cycle in progress ages by one, and while ENABLE is 1 the
prescaler phase counts, a base tick coming when it reaches PRESCALE. -/
def State.coreClock (s : State) : State :=
  let s1 := { s with bus := s.bus.clock 1 }
  if s.ctl.enable then
    if s.time.prescale.toNat ≤ s.time.phase + 1 then s1.tick
    else { s1 with time.phase := s.time.phase + 1 }
  else s1

end Sys2Proof.Machine
end

