-- ==== Sys2Proof/Machine/LaneCommands.lean ====
section
/-! DEFINITION. The lane commands (chapter 6): writes to LCMD. -/

namespace Sys2Proof.Machine

/-- LRESULT reads `r` (R115). -/
def Lane.answer (l : Lane) (r : LResult) : Lane := { l with lresult := r }

/-- The command is ACCEPTED, which clears WRITE_IGNORED (R115). -/
def Lane.accept (l : Lane) : Lane := { l with lresult := .accepted, writeIgnored := false }

/-! ## START (R116, R117) -/

/-- The checks of the lane's mode (R17, R73, R88). -/
def LaneRegs.modeFit (r : LaneRegs) (table : Eight Profile) : Bool :=
  match r.lmode with
  | .none => false
  | .capture =>
    decide (2 ≤ r.lgap.toNat ∧ r.minw.toNat < r.lgap.toNat ∧ r.minw.toNat ≤ r.maxmark.toNat
      ∧ r.maxmark ≠ 0 ∧ 1 ≤ r.maxiv.toNat ∧ r.maxiv.toNat ≤ 1023)
      && Eight.numbers.all fun i => !r.pmask.getLsbD i.val || (table.get i).valid
  | .meter => decide (r.mmode ≠ 3 ∧ 1 ≤ r.mcount.toNat ∧ r.mcount.toNat ≤ 1023)
  | .replay =>
    decide (2 ≤ r.cper.toNat ∧ r.cper.toNat ≤ 1023 ∧ 1 ≤ r.chigh.toNat
      ∧ r.chigh.toNat < r.cper.toNat)

/-- The configuration table of R116. -/
def Lane.configFit (l : Lane) (table : Eight Profile) : Bool :=
  decide (l.regs.minw ≠ 0 ∧ l.ring.sizeFit) && l.regs.modeFit table

/-- The result START gives: the first check that fails decides (R116). -/
def State.startVerdict (s : State) (n : LaneId) : LResult :=
  let l := s.lane n
  if l.life ≠ .stopped then .busy
  else if s.ctl.enable = false then .disabled
  else if l.configFit s.table = false then .badConfig
  else if l.regs.lmode = .meter ∧ s.meters.lowestFree = none then .noMeter
  else .accepted

/-- The engine of the lane's mode begins on the RUNNING lane `l` (R117). -/
def State.beginEngine (s : State) (n : LaneId) (l : Lane) : State :=
  match l.regs.lmode with
  | .capture => s.setLane n (l.startCapture s.time.count).requestFetch
  | .meter =>
    match s.meters.lowestFree with
    | some u =>
      let armed := { MeterUnit.free with claim := some n }.arm l.regs s.time.count
      { s with meters := s.meters.set u armed }.setLane n l.requestFetch
    | none => s
  | .replay => s.putLane n (l.startReplay.next fun m => m.requestFetch.quiet)
  | .none => s

/-- START (R116, R117). -/
def State.startLane (s : State) (n : LaneId) : State :=
  let l := s.lane n
  match s.startVerdict n with
  | .accepted => (s.beginEngine n { l.accept with life := .running }).raiseRequest
  | r => s.setLane n (l.answer r)

/-! ## STOP and ABORT (R118, R119) -/

/-- The engine's response to STOP on the STOPPING lane `l` (R36, R85, R109). -/
def State.stopEngine (s : State) (n : LaneId) (l : Lane) : State :=
  match l.regs.lmode with
  | .capture => s.putLane n l.finishCapture
  | .meter =>
    match s.meters.heldBy n with
    | some u => s.putMeter n u (l.stopMeter (s.meters.get u))
    | none => s.setLane n l
  | .replay => s.putLane n l.stopReplay
  | .none => s.setLane n l

/-- STOP (R118). -/
def State.stopLane (s : State) (n : LaneId) : State :=
  let l := s.lane n
  match l.life with
  | .running => (s.stopEngine n { l.accept with life := .stopping .stop }).raiseRequest
  | .stopping _ => s.setLane n l.accept
  | .stopped => s.putLane n ⟨l.accept, [(.laneStopped, Ending.stop.value)]⟩
  | .flushing _ | .faulted _ => s.setLane n (l.answer .busy)

/-- The engine's response to ABORT on the STOPPING lane `l` (R35, R86, R110). -/
def State.abortEngine (s : State) (n : LaneId) (l : Lane) : State :=
  match l.regs.lmode with
  | .capture => s.putLane n (l.abortCapture s.table)
  | .meter =>
    match s.meters.heldBy n with
    | some u => s.putMeter n u (l.abortMeter (s.meters.get u) u s.time.count)
    | none => s.setLane n l
  | .replay => s.putLane n l.abortReplay
  | .none => s.setLane n l

/-- ABORT on a FLUSHING lane: with a FLUSHED descriptor in the return slot the flush ends at the
acknowledge of its owner word, otherwise at once (R122, R145). -/
def Lane.abortFlush (l : Lane) : LaneOut :=
  match l.ring.ret with
  | some ⟨_, .flushed⟩ => { l with life := .flushing true }.quiet
  | _ => l.endFlush

/-- ABORT (R119). -/
def State.abortLane (s : State) (n : LaneId) : State :=
  let l := s.lane n
  match l.life with
  | .running | .stopping .stop =>
    (s.abortEngine n { l.accept with life := .stopping .abort }).raiseRequest
  | .stopping .abort | .stopped => s.setLane n l.accept
  | .flushing _ => (s.putLane n l.accept.abortFlush).raiseRequest
  | .faulted _ => s.setLane n (l.answer .busy)

/-! ## SKIP, FLUSH, RECOVER and RESET (R121 to R124) -/

/-- The result SKIP gives, judged in the order of R121. -/
def Lane.skipVerdict (l : Lane) (arg : BitVec 12) : LResult :=
  if arg = 0 ∨ 1023 < arg.toNat then .badCommand
  else if l.regs.lmode = .replay then .badCommand
  else if l.life ≠ .running then .busy
  else .accepted

/-- SKIP (R121). -/
def Lane.skip (l : Lane) (arg : BitVec 12) : Lane :=
  match l.skipVerdict arg with
  | .accepted => { l.accept with skipCount := arg.toNat }
  | r => l.answer r

/-- FLUSH (R122, R144). -/
def Lane.flush (l : Lane) : LaneOut :=
  if l.life ≠ .stopped then (l.answer .busy).quiet
  else if l.ring.sizeFit then
    { l.accept with life := .flushing false, ring := l.ring.beginFlush }.requestFetch.checkFlush
  else (l.answer .badConfig).quiet

/-- RECOVER (R123). -/
def Lane.recover (l : Lane) : Lane :=
  match l.life with
  | .faulted _ => { l.accept with life := .stopped, ring.slot := .empty, ring.flcount := 0 }
  | _ => l.answer .busy

/-! ## LCMD as a register (R115) -/

/-- A write to LCMD with an unknown code (R115). -/
def State.badLaneCommand (s : State) (n : LaneId) : State :=
  s.setLane n ((s.lane n).answer .badCommand)

/-- A write to LCMD (R115, R182). -/
def State.laneCommand (s : State) (n : LaneId) (code : BitVec 4) (arg : BitVec 12) : State :=
  if code = 1 then s.startLane n
  else if code = 2 then s.stopLane n
  else if code = 3 then s.abortLane n
  else if code = 4 then s.setLane n ((s.lane n).skip arg)
  else if code = 5 then (s.putLane n (s.lane n).flush).raiseRequest
  else if code = 6 then s.setLane n (s.lane n).recover
  else if code = 7 then s.resetLane n .accepted
  else s.badLaneCommand n

/-- LCMD START. The argument is ignored (R115). -/
def execStart (n : LaneId) (_arg : BitVec 12) (s : State) : Host.Outcome State Fault Refusal :=
  .next (s.hostWrite fun t => t.startLane n)

/-- LCMD STOP. -/
def execStop (n : LaneId) (_arg : BitVec 12) (s : State) : Host.Outcome State Fault Refusal :=
  .next (s.hostWrite fun t => t.stopLane n)

/-- LCMD ABORT. -/
def execAbort (n : LaneId) (_arg : BitVec 12) (s : State) : Host.Outcome State Fault Refusal :=
  .next (s.hostWrite fun t => t.abortLane n)

/-- LCMD SKIP. -/
def execSkip (n : LaneId) (arg : BitVec 12) (s : State) : Host.Outcome State Fault Refusal :=
  .next (s.hostWrite fun t => t.setLane n ((t.lane n).skip arg))

/-- LCMD FLUSH. -/
def execFlush (n : LaneId) (_arg : BitVec 12) (s : State) : Host.Outcome State Fault Refusal :=
  .next (s.hostWrite fun t => (t.putLane n (t.lane n).flush).raiseRequest)

/-- LCMD RECOVER. -/
def execRecover (n : LaneId) (_arg : BitVec 12) (s : State) : Host.Outcome State Fault Refusal :=
  .next (s.hostWrite fun t => t.setLane n (t.lane n).recover)

/-- LCMD RESET (R124, R128). -/
def execReset (n : LaneId) (_arg : BitVec 12) (s : State) : Host.Outcome State Fault Refusal :=
  .next (s.hostWrite fun t => t.resetLane n .accepted)

/-- An LCMD write with an unknown code (R115). A code that names a command spells that command's row,
not this one, and changes nothing here (DESIGN CHOICE, log 1). -/
def execLcmdBadCommand (n : LaneId) (code : BitVec 4) (_arg : BitVec 12) (s : State) :
    Host.Outcome State Fault Refusal :=
  if lcmdKnown code then .next s else .next (s.hostWrite fun t => t.badLaneCommand n)

end Sys2Proof.Machine
end

