-- ==== Sys2Proof/Machine/ProfileCommands.lean ====
section
/-! DEFINITION. The profile table's requests (3.2, 3.6): writes to PCMD. -/

namespace Sys2Proof.Machine

/-- A live matcher for `ix` goes DEAD (R67). -/
def Lane.killMatcher (l : Lane) (ix : ProfileIx) : Lane :=
  if (l.matchers.get ix).state.live then
    { l with matchers := l.matchers.set ix (l.matchers.get ix).kill }
  else l

/-- What a change of profile `ix` does to the work bound to it, on every lane (R67, R68). -/
def State.profileChanged (s : State) (ix : ProfileIx) : State :=
  { s with lanes := s.lanes.mapIdx fun _ l => (l.killMatcher ix).profileChanged ix }

/-- COMMIT (R49, R50). -/
def State.commitProfile (s : State) (ix : ProfileIx) : State :=
  match s.staging.commitResult with
  | .ok =>
    ({ s with presult := .ok, table := s.table.set ix ⟨true, s.staging⟩ }.profileChanged
      ix).raiseRequest
  | r => { s with presult := r }

/-- CLEAR (R51). -/
def State.clearProfile (s : State) (ix : ProfileIx) : State :=
  ({ s with presult := .ok, table := s.table.set ix .empty }.profileChanged ix).raiseRequest

/-- LOAD (R52). -/
def State.loadProfile (s : State) (ix : ProfileIx) : State :=
  { s with presult := .ok, staging := (s.table.get ix).fields }

/-- A PCMD write with an unknown request (R48). -/
def State.badProfileCommand (s : State) : State := { s with presult := .badCommand }

/-- A write to PCMD (R48, R182). -/
def State.profileCommand (s : State) (code : BitVec 4) (ix : ProfileIx) : State :=
  if code = 1 then s.commitProfile ix
  else if code = 2 then s.clearProfile ix
  else if code = 3 then s.loadProfile ix
  else s.badProfileCommand

/-- PCMD COMMIT (R49, R50). -/
def execCommit (ix : ProfileIx) (s : State) : Host.Outcome State Fault Refusal :=
  .next (s.hostWrite fun t => t.commitProfile ix)

/-- PCMD CLEAR (R51). -/
def execClear (ix : ProfileIx) (s : State) : Host.Outcome State Fault Refusal :=
  .next (s.hostWrite fun t => t.clearProfile ix)

/-- PCMD LOAD (R52). -/
def execLoad (ix : ProfileIx) (s : State) : Host.Outcome State Fault Refusal :=
  .next (s.hostWrite fun t => t.loadProfile ix)

/-- A PCMD write with an unknown request (R48). A code that names a request spells that request's
row, and changes nothing here (DESIGN CHOICE, log 1). -/
def execPcmdBadCommand (code : BitVec 4) (_ix : ProfileIx) (s : State) :
    Host.Outcome State Fault Refusal :=
  if threeKnown code then .next s else .next (s.hostWrite State.badProfileCommand)

end Sys2Proof.Machine
end

