-- ==== Sys2Proof/Machine/Registers.lean ====
section
/-! DEFINITION. Writes to the registers of the window (10.1, 10.4): the ring registers, LCFG and every
other register, under the configuration lock (R125) and the rules of access (R174). -/

namespace Sys2Proof.Machine

/-! ## The configuration lock (R125) -/

/-- A write to a register under the lock: taken while the lane is STOPPED, else ignored with
WRITE_IGNORED set. -/
def State.lockedWrite (s : State) (n : LaneId) (f : Lane → Lane) : State :=
  let l := s.lane n
  if l.life = .stopped then s.setLane n (f l) else s.setLane n { l with writeIgnored := true }

/-- A write to RBASE or RSIZE, which is also ignored while the ring controller of a STOPPED lane has a
burst requested or in progress; a taken one re-initialises the ring controller (R130). -/
def State.ringWrite (s : State) (n : LaneId) (f : Ring → Ring) : State :=
  let l := s.lane n
  if l.life = .stopped ∧ l.ring.busy = false then s.setLane n { l with ring := (f l.ring).reinit }
  else s.setLane n { l with writeIgnored := true }

/-- A write to RBASE, one word at a time (R130, R174). -/
def State.writeRbase (s : State) (n : LaneId) (high : Bool) (w : Word) : State :=
  s.ringWrite n fun r => { r with rbase := if high then rbaseHigh r.rbase w else rbaseLow r.rbase w }

/-- A write to RSIZE (R130). -/
def State.writeRsize (s : State) (n : LaneId) (w : Word) : State :=
  s.ringWrite n fun r => { r with rsize := w }

/-- A write to LCFG: taken, it resynchronises the front end (R7). -/
def State.writeLcfg (s : State) (n : LaneId) (w : Word) : State :=
  s.lockedWrite n fun l =>
    let regs := l.regs.withLcfg w
    { l with regs := regs, fe := FrontEnd.resync l.line regs.div s.time.count }

/-- A write to POSTED, taken in every lane state (R132). -/
def State.writePostedReg (s : State) (n : LaneId) (w : Word) : State :=
  (s.putLane n ((s.lane n).writePosted w)).raiseRequest

/-- A write to one of the plain configuration registers of lane `n` (R17, R73, R88). -/
def State.writeRegs (s : State) (n : LaneId) (f : LaneRegs → LaneRegs) : State :=
  s.lockedWrite n fun l => { l with regs := f l.regs }

/-! ## The window (R174, R182) -/

/-- A word write to the lane register at offset `r` of lane `n`'s block (R182). -/
def State.writeLaneReg (s : State) (n : LaneId) (r : Nat) (w : Word) : State :=
  match r with
  | 0x00 => s.writeLcfg n w
  | 0x02 => s.writeRegs n fun g => { g with lgap := w }
  | 0x04 => s.writeRegs n fun g => { g with maxmark := w }
  | 0x06 => s.writeRegs n fun g => { g with maxiv := w }
  | 0x08 => s.writeRegs n fun g => { g with tlimit := w }
  | 0x0A => s.writeRegs n fun g => { g with pmask := w.extractLsb' 0 8 }
  | 0x0C => s.writeRegs n fun g => g.withLmcfg w
  | 0x0E => s.writeRegs n fun g => { g with mcount := w }
  | 0x10 => s.writeRegs n fun g => { g with mtimeout := w }
  | 0x12 => s.writeRegs n fun g => { g with cper := w }
  | 0x14 => s.writeRegs n fun g => { g with chigh := w }
  | 0x16 => s.writeRbase n false w
  | 0x18 => s.writeRbase n true w
  | 0x1A => s.writeRsize n w
  | 0x1C => s.writePostedReg n w
  | 0x20 => s.laneCommand n (lcmdCode w) (lcmdArg w)
  | _ => s

/-- A word write to the global register at offset `o` (R182). -/
def State.writeGlobalReg (s : State) (o : Nat) (w : Word) : State :=
  match o with
  | 0x004 => s.writeControl w
  | 0x008 => s.writePresc w
  | 0x00A => s.writeResplim w
  | 0x00C => s.globalCommand (w.extractLsb' 0 4)
  | 0x00E => { s with ctl.garg := w }
  | 0x01E => s.clearFault
  | 0x026 => s.popEvent
  | 0x028 => s.writeIrqctl w
  | 0x02A => s.writeIrqhold w
  | 0x02C => s.profileCommand (w.extractLsb' 0 4) (w.extractLsb' 8 3).toFin
  | _ => s

/-- The word offset of an access: address bit 0 is not used (R174). -/
def wordOffset (offset : BitVec 10) : Nat := offset.toNat / 2 * 2

/-- The lane whose block holds offset `o`, for offsets 0x100 to 0x2FF (R174). -/
def blockLane (o : Nat) : LaneId := Fin.ofNat 8 ((o - 0x100) / 0x40)

/-- A word write to the window. Writes to unmapped offsets and to read-only registers are ignored,
with no flag set (R174). -/
def State.writeWindow (s : State) (offset : BitVec 10) (w : Word) : State :=
  let o := wordOffset offset
  if o < 0x080 then s.writeGlobalReg o w
  else if o ≤ 0x0B2 then { s with staging := s.staging.withStagingWord ((o - 0x080) / 2) w }
  else if 0x100 ≤ o ∧ o < 0x300 then s.writeLaneReg (blockLane o) ((o - 0x100) % 0x40) w
  else s

/-! ## The commands -/

/-- POSTED_WRITE (R132). -/
def execPostedWrite (n : LaneId) (w : Word) (s : State) : Host.Outcome State Fault Refusal :=
  .next (s.hostWrite fun t => t.writePostedReg n w)

/-- RBASE_WRITE (R130): `high` names the second word of the register. -/
def execRbaseWrite (n : LaneId) (high : Bool) (w : Word) (s : State) :
    Host.Outcome State Fault Refusal :=
  .next (s.hostWrite fun t => t.writeRbase n high w)

/-- RSIZE_WRITE (R130). -/
def execRsizeWrite (n : LaneId) (w : Word) (s : State) : Host.Outcome State Fault Refusal :=
  .next (s.hostWrite fun t => t.writeRsize n w)

/-- LCFG_WRITE (R7). -/
def execLcfgWrite (n : LaneId) (w : Word) (s : State) : Host.Outcome State Fault Refusal :=
  .next (s.hostWrite fun t => t.writeLcfg n w)

/-- REGISTER_WRITE (R174): a write access to the window. A byte write has no effect anywhere. A word
write at the offset of a register that has a row of its own does what that row does (DESIGN CHOICE,
log 7). -/
def execRegisterWrite (size : AccessSize) (offset : BitVec 10) (w : Word) (s : State) :
    Host.Outcome State Fault Refusal :=
  match size with
  | .byte => .next s
  | .word => .next (s.hostWrite fun t => t.writeWindow offset w)

end Sys2Proof.Machine
end

