-- ==== Sys2Proof/Machine/Dispatch.lean ====
section
/-! DEFINITION. One arm per command, each one call of its meaning. -/

namespace Sys2Proof.Machine

def exec (i : Instr) (s : State) : Host.Outcome State Fault Refusal :=
  match i with
  | .deviceReset => Sys2Proof.Machine.execDeviceReset s
  | .baseTick => Sys2Proof.Machine.execBaseTick s
  | .transition n => Sys2Proof.Machine.execTransition n s
  | .edgeAccepted n => Sys2Proof.Machine.execEdgeAccepted n s
  | .waitPointReached n => Sys2Proof.Machine.execWaitPointReached n s
  | .gapPointReached n => Sys2Proof.Machine.execGapPointReached n s
  | .markPointReached n => Sys2Proof.Machine.execMarkPointReached n s
  | .tlimitExpiry n => Sys2Proof.Machine.execTlimitExpiry n s
  | .mtimeoutExpiry n => Sys2Proof.Machine.execMtimeoutExpiry n s
  | .holdoffExpiry => Sys2Proof.Machine.execHoldoffExpiry s
  | .firstIntervalBegin n => Sys2Proof.Machine.execFirstIntervalBegin n s
  | .intervalEnd n => Sys2Proof.Machine.execIntervalEnd n s
  | .trailingGapEnd n => Sys2Proof.Machine.execTrailingGapEnd n s
  | .carrierPhase n => Sys2Proof.Machine.execCarrierPhase n s
  | .busGrant => Sys2Proof.Machine.execBusGrant s
  | .wordAck data => Sys2Proof.Machine.execWordAck data s
  | .fetchComplete data => Sys2Proof.Machine.execFetchComplete data s
  | .writeBack => Sys2Proof.Machine.execWriteBack s
  | .errorReply => Sys2Proof.Machine.execErrorReply s
  | .noResponse => Sys2Proof.Machine.execNoResponse s
  | .softResetComplete => Sys2Proof.Machine.execSoftResetComplete s
  | .start n arg => Sys2Proof.Machine.execStart n arg s
  | .stop n arg => Sys2Proof.Machine.execStop n arg s
  | .abort n arg => Sys2Proof.Machine.execAbort n arg s
  | .skip n arg => Sys2Proof.Machine.execSkip n arg s
  | .flush n arg => Sys2Proof.Machine.execFlush n arg s
  | .recover n arg => Sys2Proof.Machine.execRecover n arg s
  | .reset n arg => Sys2Proof.Machine.execReset n arg s
  | .lcmdBadCommand n code arg => Sys2Proof.Machine.execLcmdBadCommand n code arg s
  | .snap => Sys2Proof.Machine.execSnap s
  | .note => Sys2Proof.Machine.execNote s
  | .softReset => Sys2Proof.Machine.execSoftReset s
  | .gcmdUnknown code => Sys2Proof.Machine.execGcmdUnknown code s
  | .commit ix => Sys2Proof.Machine.execCommit ix s
  | .clear ix => Sys2Proof.Machine.execClear ix s
  | .load ix => Sys2Proof.Machine.execLoad ix s
  | .pcmdBadCommand code ix => Sys2Proof.Machine.execPcmdBadCommand code ix s
  | .controlWrite w => Sys2Proof.Machine.execControlWrite w s
  | .prescWrite w => Sys2Proof.Machine.execPrescWrite w s
  | .resplimWrite w => Sys2Proof.Machine.execResplimWrite w s
  | .irqctlWrite w => Sys2Proof.Machine.execIrqctlWrite w s
  | .irqholdWrite w => Sys2Proof.Machine.execIrqholdWrite w s
  | .evqpop w => Sys2Proof.Machine.execEvqpop w s
  | .fclr w => Sys2Proof.Machine.execFclr w s
  | .postedWrite n w => Sys2Proof.Machine.execPostedWrite n w s
  | .rbaseWrite n high w => Sys2Proof.Machine.execRbaseWrite n high w s
  | .rsizeWrite n w => Sys2Proof.Machine.execRsizeWrite n w s
  | .lcfgWrite n w => Sys2Proof.Machine.execLcfgWrite n w s
  | .registerWrite size offset w => Sys2Proof.Machine.execRegisterWrite size offset w s

end Sys2Proof.Machine
end

