-- ==== Sys2Proof/Machine/Flags.lean ====
section
/-! DEFINITION. What the window shows: the status fields of every block at the bit positions and codes
of R182, and a word or byte read of the window (R174). Reads have no side effect, so the table has no
row for them; these views are for statements about what the host sees. -/

namespace Sys2Proof.Machine

/-- A field of a register: its lowest bit, its width and its value. -/
abbrev BitField := Nat × Nat × Nat

/-- A register made of its fields; bits no field names read 0 (R174). -/
def packFields : List BitField → Word
  | [] => 0
  | (lo, width, v) :: rest => (BitVec.ofNat 16 (v % 2 ^ width) <<< lo) ||| packFields rest

/-- A flag as a number. -/
def bit (b : Bool) : Nat := if b then 1 else 0

/-! ## Codes (R182, R186) -/

def Level.code : Level → Nat
  | .low => 0
  | .high => 1

def LMode.code : LMode → Nat
  | .none => 0
  | .capture => 1
  | .meter => 2
  | .replay => 3

def DriveStyle.code : DriveStyle → Nat
  | .release => 0
  | .drive => 1

def LResult.code : LResult → Nat
  | .none => 0
  | .accepted => 1
  | .busy => 2
  | .badConfig => 3
  | .disabled => 4
  | .noMeter => 5
  | .badCommand => 6

def PResult.code : PResult → Nat
  | .none => 0
  | .ok => 1
  | .badRange => 2
  | .badNominal => 3
  | .badBits => 4
  | .repeatNeedsLead => 5
  | .ambiguous => 6
  | .badCommand => 7

def Life.code : Life → Nat
  | .stopped => 0
  | .running => 1
  | .stopping _ => 2
  | .flushing _ => 3
  | .faulted _ => 4

def Life.endingCode : Life → Nat
  | .stopping .stop => 1
  | .stopping .abort => 2
  | _ => 0

def Life.causeCode : Life → Nat
  | .faulted c => c.code.toNat
  | _ => 0

def CState.code : CState → Nat
  | .inactive => 0
  | .arming => 1
  | .listen => 2
  | .inFrame => 3
  | .holdoff => 4

def DropWhy.code : DropWhy → Nat
  | .none => 0
  | .skipped => 1
  | .noSlot => 2
  | .noBuffer => 3

def MState.code : MState → Nat
  | .inactive => 0
  | .armed => 1
  | .counting => 2
  | .result => 3

def RState.code : RState → Nat
  | .inactive => 0
  | .rWait => 1
  | .rLoad => 2
  | .rFill => 3
  | .rPlay => 4
  | .rTrail => 5

def rkindCode : Option RKind → Nat
  | none => 0
  | some .intervals => 1
  | some .code => 2

def Slot.code : Slot → Nat
  | .empty => 0
  | .fetching _ _ _ => 1
  | .held _ => 2

def Slot.index : Slot → Nat
  | .empty => 0
  | .fetching i _ _ => i
  | .held d => d.index

def returnCode : Option Returned → Nat
  | none => 0
  | some ⟨_, .badBuffer⟩ => 1
  | some ⟨_, .flushed⟩ => 2

def Purpose.code : Purpose → Nat
  | .fetch => 1
  | .drain => 2
  | .decode => 3
  | .header => 4
  | .writeback => 5
  | .fill => 6
  | .load => 7

def BusState.code : BusState → Nat
  | .idle => 0
  | .requesting => 1
  | .owned _ => 2

def EventKind.code : EventKind → Nat
  | .frameRecord => 1
  | .meterRecord => 2
  | .replayDone => 3
  | .ringEmpty => 4
  | .laneStopped => 5
  | .flushDone => 6
  | .laneFault => 7
  | .note => 8
  | .overflow => 9

/-- The lane field of an event: 0 to 7, and DEVICE 15 (R186). -/
def eventLaneCode : Option LaneId → Nat
  | some n => n.val
  | none => 15

/-! ## Lane registers -/

/-- LCFG (R7). -/
def LaneRegs.lcfg (r : LaneRegs) : Word :=
  packFields [(0, 2, r.lmode.code), (2, 1, r.idle.code), (3, 1, r.driveStyle.code),
    (4, 3, r.div.toNat), (8, 8, r.minw.toNat)]

/-- LMCFG (R73). -/
def LaneRegs.lmcfg (r : LaneRegs) : Word :=
  packFields [(0, 2, r.mmode.toNat), (2, 1, bit r.cont), (3, 1, bit r.spread)]

/-- LSTAT (R114). -/
def Lane.lstat (l : Lane) : Word :=
  packFields [(0, 3, l.life.code), (3, 2, l.life.endingCode), (5, 2, l.life.causeCode),
    (7, 1, bit l.writeIgnored)]

/-- LCAPST (R18). -/
def Lane.lcapst (l : Lane) : Word :=
  packFields [(0, 3, l.cap.cstate.code), (4, 2, l.cap.records.length), (6, 10, l.skipCount)]

/-- The unit a lane holds, as MUNIT, MSTATE and MITEMS show it (R74). In M_RESULT no measurement is
in progress, and MITEMS reads 0 (DEDUCED, log 9). -/
def State.lmst (s : State) (n : LaneId) : Word :=
  let slot : BitField := (4, 1, bit (s.lane n).result.isSome)
  match s.meters.heldBy n with
  | none => packFields [slot]
  | some u =>
    let m := s.meters.get u
    packFields [(0, 2, u.val + 1), (2, 2, m.state.code), slot,
      (6, 10, if m.state = .result then 0 else m.items)]

/-- RKIND: of the current record, or of the finished one until its write-back (R89, R107). -/
def ReplayEngine.shownKind (e : ReplayEngine) : Option RKind :=
  match e.current, e.finished with
  | some c, _ => c.kind
  | none, some f => f.kind
  | none, none => none

/-- PASSES (R89). -/
def ReplayEngine.shownPasses (e : ReplayEngine) : Nat :=
  match e.current, e.finished with
  | some c, _ => c.passes
  | none, some f => f.passes
  | none, none => 0

/-- LRPST (R89). -/
def Lane.lrpst (l : Lane) : Word :=
  packFields [(0, 3, l.rep.rstate.code), (3, 2, rkindCode l.rep.shownKind),
    (5, 1, bit l.rep.finished.isSome), (6, 9, l.rep.shownPasses)]

/-- LRSTAT (R133). -/
def Ring.lrstat (r : Ring) : Word :=
  packFields [(0, 2, r.slot.code), (2, 2, returnCode r.ret), (4, 1, bit r.ringEmpty),
    (5, 1, bit r.postRefused), (8, 8, r.slot.index)]

/-- A word read of lane `n`'s register at offset `r` (R182). -/
def State.readLaneReg (s : State) (n : LaneId) (r : Nat) : Word :=
  let l := s.lane n
  match r with
  | 0x00 => l.regs.lcfg
  | 0x02 => l.regs.lgap
  | 0x04 => l.regs.maxmark
  | 0x06 => l.regs.maxiv
  | 0x08 => l.regs.tlimit
  | 0x0A => l.regs.pmask.zeroExtend 16
  | 0x0C => l.regs.lmcfg
  | 0x0E => l.regs.mcount
  | 0x10 => l.regs.mtimeout
  | 0x12 => l.regs.cper
  | 0x14 => l.regs.chigh
  | 0x16 => l.ring.rbase.extractLsb' 0 16
  | 0x18 => (l.ring.rbase.extractLsb' 16 8).zeroExtend 16
  | 0x1A => l.ring.rsize
  | 0x1C => l.ring.posted
  | 0x1E => l.ring.consumed
  | 0x22 => BitVec.ofNat 16 l.lresult.code
  | 0x24 => l.lstat
  | 0x26 => l.lcapst
  | 0x28 => l.seq
  | 0x2A => l.dropped
  | 0x2C => BitVec.ofNat 16 l.dropWhy.code
  | 0x2E => s.lmst n
  | 0x30 => l.lrpst
  | 0x32 => l.ring.lrstat
  | 0x34 => l.ring.flcount
  | _ => 0

/-! ## Global registers -/

/-- A unit's two fields in MPOOL; LANE of a free unit is a free value (log 14). -/
def MeterUnit.mpoolFields (m : MeterUnit) (lo : Nat) (u : BitVec 1) : List BitField :=
  match m.claim with
  | some n => [(lo, 1, 1), (lo + 1, 3, n.val)]
  | none => [(lo, 1, 0), (lo + 1, 3, (Config.freeUnitLane u).toNat)]

/-- BMSTAT (R153). -/
def BusMaster.bmstat (b : BusMaster) : Word :=
  match b.burst with
  | some burst =>
    packFields [(0, 2, b.bstate.code), (2, 3, burst.purpose.code), (5, 3, burst.lane.val),
      (8, 4, burst.remaining), (12, 3, b.ptr.val)]
  | none => packFields [(0, 2, b.bstate.code), (12, 3, b.ptr.val)]

/-- FSTAT (R158). -/
def FaultRecord.fstat (r : FaultRecord) : Word :=
  packFields [(0, 1, bit r.valid), (1, 1, bit r.multi), (2, 1, bit r.isWrite), (4, 3, r.lane.val),
    (8, 3, r.purpose.code), (12, 1, bit r.errorReply)]

/-- EVQ0 (R166, R186). -/
def EventQueue.evq0 (q : EventQueue) : Word :=
  match q.entries with
  | [] => 0
  | e :: _ => packFields [(0, 4, e.kind.code), (8, 4, eventLaneCode e.lane)]

/-- EVQ1 (R166). -/
def EventQueue.evq1 (q : EventQueue) : Word :=
  match q.entries with
  | [] => 0
  | e :: _ => e.value

/-- EVQCOUNT (R166). -/
def EventQueue.evqcount (q : EventQueue) : Word :=
  packFields [(0, 6, q.entries.length), (8, 1, bit q.expired), (9, 1, bit q.irq)]

/-- IRQCTL (R170). -/
def EventQueue.irqctl (q : EventQueue) : Word :=
  packFields [(0, 1, bit q.ie), (8, 6, q.ithresh.toNat)]

/-- STATUS (R176). -/
def Control.status (c : Control) : Word :=
  packFields [(0, 1, bit c.resetPending), (1, 1, bit c.refused)]

/-- A word read of the global register at offset `o` (R182). -/
def State.readGlobalReg (s : State) (o : Nat) : Word :=
  match o with
  | 0x000 => 0x2408
  | 0x002 => 0x0001
  | 0x004 => BitVec.ofNat 16 (bit s.ctl.enable)
  | 0x006 => s.ctl.status
  | 0x008 => s.time.prescale.zeroExtend 16
  | 0x00A => s.bus.resplim.zeroExtend 16
  | 0x00E => s.ctl.garg
  | 0x010 => lowWord s.time.tsnap
  | 0x012 => highWord s.time.tsnap
  | 0x014 => packFields (s.meters.meter0.mpoolFields 0 0 ++ s.meters.meter1.mpoolFields 8 1)
  | 0x016 => s.bus.bmstat
  | 0x018 => s.bus.fault.fstat
  | 0x01A => s.bus.fault.addr.extractLsb' 0 16
  | 0x01C => (s.bus.fault.addr.extractLsb' 16 8).zeroExtend 16
  | 0x020 => s.queue.evq0
  | 0x022 => s.queue.evq1
  | 0x024 => s.queue.evqcount
  | 0x028 => s.queue.irqctl
  | 0x02A => s.queue.ihold
  | 0x02E => BitVec.ofNat 16 s.presult.code
  | 0x030 => validMask s.table
  | _ => 0

/-- The words of the staging set in the order of their offsets (R47, R182). -/
def ProfileFields.words (p : ProfileFields) : List Word :=
  packFields [(0, 1, bit p.hasLead), (1, 1, bit p.hasRepeat), (2, 1, bit p.msbFirst)]
    :: packFields [(0, 8, p.bitMin.toNat), (8, 8, p.bitMax.toNat)]
    :: [p.leadMark, p.leadSpace, p.repeatSpace, p.zeroMark, p.zeroSpace, p.oneMark, p.oneSpace,
        p.stopMark].flatMap fun t => [t.min, t.nom, t.max]

/-- A word read of the window (R174). Unmapped offsets and write-only registers read 0. -/
def State.readWindow (s : State) (offset : BitVec 10) : Word :=
  let o := wordOffset offset
  if o < 0x080 then s.readGlobalReg o
  else if o ≤ 0x0B2 then (s.staging.words[(o - 0x080) / 2]?).getD 0
  else if 0x100 ≤ o ∧ o < 0x300 then s.readLaneReg (blockLane o) ((o - 0x100) % 0x40)
  else 0

/-- A byte read of the window: the low byte at an even address, the high byte at an odd one (R174). -/
def State.readByte (s : State) (offset : BitVec 10) : BitVec 8 :=
  (s.readWindow offset).extractLsb' (if offset.getLsbD 0 then 8 else 0) 8

/-! ## Signals (R187) -/

/-- BREQ: the bus master asks for the bus (R151). R151 and R187 say when the request is raised, not when
it falls once the bus is granted: it falls at the grant here and is low while the bus is OWNED (DESIGN
CHOICE, log 23). -/
def BusMaster.breq (b : BusMaster) : Bool := decide (b.bstate = .requesting)

/-- IRQ (R169). -/
def State.irq (s : State) : Bool := s.queue.irq

end Sys2Proof.Machine
end

