-- ==== Sys2Proof/WellFormed.lean ====
section
/-! DEFINITION. Well-formed commands: a command whose operands spell its own row of the table. A row for
unknown codes carries an unknown code, and the row for any other register write addresses no register
that has a row of its own. -/

namespace Sys2Proof

/-- The global registers whose word writes have rows of their own, as word offsets (R182). -/
def globalRowOffsets : List Nat :=
  [0x004, 0x008, 0x00A, 0x00C, 0x01E, 0x026, 0x028, 0x02A, 0x02C]

/-- The lane registers whose word writes have rows of their own, as word offsets in the block (R182). -/
def laneRowOffsets : List Nat := [0x00, 0x16, 0x18, 0x1A, 0x1C, 0x20]

/-- The word at offset `o` has a row of its own. -/
def hasRow (o : Nat) : Bool :=
  globalRowOffsets.contains o
    || (decide (0x100 ≤ o ∧ o < 0x300) && laneRowOffsets.contains ((o - 0x100) % 0x40))

/-- The command spells its own row. -/
def Instr.wellFormed : Instr → Bool
  | .lcmdBadCommand _ code _ => !decide (Machine.lcmdKnown code)
  | .gcmdUnknown code => !decide (Machine.threeKnown code)
  | .pcmdBadCommand code _ => !decide (Machine.threeKnown code)
  | .registerWrite .word offset _ => !hasRow (offset.toNat / 2 * 2)
  | .registerWrite .byte _ _ => true
  | .deviceReset | .baseTick | .transition _ | .edgeAccepted _ | .waitPointReached _
  | .gapPointReached _ | .markPointReached _ | .tlimitExpiry _ | .mtimeoutExpiry _
  | .holdoffExpiry | .firstIntervalBegin _ | .intervalEnd _ | .trailingGapEnd _ | .carrierPhase _
  | .busGrant | .wordAck _ | .fetchComplete _ | .writeBack | .errorReply | .noResponse
  | .softResetComplete | .start _ _ | .stop _ _ | .abort _ _ | .skip _ _ | .flush _ _
  | .recover _ _ | .reset _ _ | .snap | .note | .softReset | .commit _ | .clear _ | .load _
  | .controlWrite _ | .prescWrite _ | .resplimWrite _ | .irqctlWrite _ | .irqholdWrite _
  | .evqpop _ | .fclr _ | .postedWrite _ _ | .rbaseWrite _ _ _ | .rsizeWrite _ _
  | .lcfgWrite _ _ => true

end Sys2Proof
end

