-- ==== Sys2Proof/Safety.lean ====
section
/-! DEFINITION. What a safe step is, and the conditions on states that the manual's rules promise of
every state a run reaches: the terms the statements use. -/

namespace Sys2Proof.Safety

open Sys2Proof.Machine

/-- The outcome is a next state. -/
def isNext : Host.Outcome State Fault Refusal → Prop
  | .next _ => True
  | _ => False

/-- `P` holds of the next state, if the outcome is one. -/
def nextHolds (P : State → Prop) : Host.Outcome State Fault Refusal → Prop
  | .next t => P t
  | _ => True

/-- `P` is kept by every step, whatever commands wait. -/
def keptByStep (P : State → Prop) : Prop := ∀ s, P s → nextHolds P (step s)

/-- No two entries standing next to one another are both OVERFLOW (R163). -/
def noAdjacentOverflow : List Event → Bool
  | e :: f :: rest =>
    !(decide (e.kind = .overflow) && decide (f.kind = .overflow)) && noAdjacentOverflow (f :: rest)
  | _ => true

/-- The event queue holds at most 32 entries, the newest OVERFLOW where it holds 32 (R163); with no
entry the latch is clear and the timer stopped (R171, R172); ITHRESH lies in its range (R170). -/
abbrev queueOk (q : EventQueue) : Prop :=
  q.entries.length ≤ 32 ∧ (q.entries.length = 32 → newestIsOverflow q.entries = true)
    ∧ (q.entries = [] → q.expired = false ∧ q.timer = none)
    ∧ 1 ≤ q.ithresh.toNat ∧ q.ithresh.toNat ≤ 32

/-- An entry is VALID and passes every commit check, or EMPTY with zeros in every field (R45, R50). -/
abbrev profileOk (p : Profile) : Prop :=
  if p.valid then p.fields.commitResult = .ok else p.fields = .zero

/-- POSTED − CONSUMED lies between 0 and RSIZE (R131), a fetch has a posted descriptor to take, and
the ring starts on an 8-byte boundary (R130). -/
abbrev ringOk (r : Ring) : Prop :=
  r.posted - r.consumed ≤ r.rsize
    ∧ (r.slot.isFetching = true → r.posted ≠ r.consumed)
    ∧ r.rbase.extractLsb' 0 3 = 0

/-- Every lane satisfies `P`. -/
abbrev everyLane (P : Lane → Prop) (s : State) : Prop := ∀ n : LaneId, P (s.lane n)

/-- No lane is RUNNING or STOPPING while ENABLE is 0 (R1, R12). -/
abbrev enabledWhileActive (s : State) : Prop :=
  everyLane (fun l => l.life.active = true → s.ctl.enable = true) s

/-- PRESCALE lies in its range, the phase below it, and the phase is 0 while ENABLE is 0 (R2). -/
abbrev timeOk (s : State) : Prop :=
  1 ≤ s.time.prescale.toNat ∧ s.time.prescale.toNat ≤ 256 ∧ s.time.phase < s.time.prescale.toNat
    ∧ (s.ctl.enable = false → s.time.phase = 0)

/-- A meter unit is claimed only by a lane whose mode is METER and whose state is RUNNING or
STOPPING, and no lane holds both (R71). -/
abbrev poolOk (s : State) : Prop :=
  (∀ u : UnitId, ∀ n : LaneId, (s.meters.get u).claim = some n → (s.lane n).runs .meter)
    ∧ (∀ n : LaneId, ¬ (s.meters.meter0.claim = some n ∧ s.meters.meter1.claim = some n))

/-- The records of the list are numbered in order: each carries the number of the one before plus 1
plus its own dropped-before count (R41). -/
def numbered : List Record → Bool
  | a :: b :: rest =>
    decide (b.seq = a.seq + 1 + b.droppedBefore) && numbered (b :: rest)
  | _ => true

/-- Work is held only by a lane at work in its mode: an open frame or record in CAPTURE, a result in
METER, a current or finished record in REPLAY (R120). -/
abbrev workOk (l : Lane) : Prop :=
  ((l.cap.frame.isSome = true ∨ l.cap.records ≠ []) → l.runs .capture)
    ∧ (l.result.isSome = true → l.runs .meter)
    ∧ ((l.rep.current.isSome = true ∨ l.rep.finished.isSome = true) → l.runs .replay)

/-- At most two open records, numbered in order, and the sequence counter follows the newest of them
by 1 plus the dropped counter (R22, R25, R41). -/
abbrev recordsOk (l : Lane) : Prop :=
  l.cap.records.length ≤ 2 ∧ numbered l.cap.records = true
    ∧ (∀ r ∈ l.cap.records.getLast?, l.seq = r.seq + 1 + l.dropped)

/-- The newest open record is FILLING exactly while a kept frame is open, and every older one is CLOSED
(2.6). -/
abbrev fillingOk (l : Lane) : Prop :=
  (∀ r ∈ l.cap.records.dropLast, r.close.isSome = true)
    ∧ (∀ f ∈ l.cap.frame, f.disp = .kept →
        ∃ r ∈ l.cap.records.getLast?, r.close = none)
    ∧ (∀ r ∈ l.cap.records.getLast?, r.close = none →
        ∃ f ∈ l.cap.frame, f.disp = .kept)

/-- A capture lane's FIFO leaves a free entry for the end marker of the FILLING record, and holds at
most 32 entries in any case (R28). -/
abbrev fifoOk (l : Lane) : Prop :=
  l.fifo.length ≤ Config.fifoDepth
    ∧ (∀ f ∈ l.cap.frame, f.disp = .kept → l.fifo.length + 1 ≤ Config.fifoDepth)

/-- A FILL burst whose lane has not been reset has room in the FIFO for its remaining words, and its
lane is at work in REPLAY on that record, or has just ended it (R96, R107). -/
abbrev fillRoomOk (s : State) : Prop :=
  ∀ b ∈ s.bus.burst, b.purpose = .fill → b.orphan = false →
    (s.lane b.lane).runs .replay
      ∧ ((s.lane b.lane).rep.current.isSome = true ∨ (s.lane b.lane).rep.finished.isSome = true)
      ∧ 1 ≤ b.remaining
      ∧ (s.lane b.lane).fifo.length + b.remaining ≤ Config.fifoDepth

/-- A pending change is present exactly while the sampled level differs from the filtered level, on
every lane whose front end samples (spec/01, "The glitch filter"). -/
abbrev filterOk (l : Lane) : Prop :=
  l.regs.lmode.samples = true →
    ∀ lvl, (l.fe.change.map Change.level = some lvl ↔ l.fe.sampled = lvl ∧ l.fe.filtered ≠ lvl)

/-- An IDLE bus master has no lane's request before it, unless a soft reset is pending: the bus request is
raised in the happening that presents one (R151, R160). -/
abbrev requestRaised (s : State) : Prop :=
  s.bus.bstate = .idle → s.ctl.resetPending = false → ∀ n, s.request n = none

/-- A FAULTED lane returns no descriptor (R126, R146). -/
abbrev faultedClear (l : Lane) : Prop := ∀ c, l.life = .faulted c → l.ring.ret = none

/-! ## Kinds of command -/

/-- The command is a write to the register window (R174). -/
def isWindowWrite : Instr → Bool
  | .start _ _ | .stop _ _ | .abort _ _ | .skip _ _ | .flush _ _ | .recover _ _ | .reset _ _
  | .lcmdBadCommand _ _ _ | .snap | .note | .softReset | .gcmdUnknown _ | .commit _ | .clear _
  | .load _ | .pcmdBadCommand _ _ | .controlWrite _ | .prescWrite _ | .resplimWrite _
  | .irqctlWrite _ | .irqholdWrite _ | .evqpop _ | .fclr _ | .postedWrite _ _ | .rbaseWrite _ _ _
  | .rsizeWrite _ _ | .lcfgWrite _ _ | .registerWrite _ _ _ => true
  | .deviceReset | .baseTick | .transition _ | .edgeAccepted _ | .waitPointReached _
  | .gapPointReached _ | .markPointReached _ | .tlimitExpiry _ | .mtimeoutExpiry _
  | .holdoffExpiry | .firstIntervalBegin _ | .intervalEnd _ | .trailingGapEnd _ | .carrierPhase _
  | .busGrant | .wordAck _ | .fetchComplete _ | .writeBack | .errorReply | .noResponse
  | .softResetComplete => false

/-- The lane is RUNNING, STOPPING or FLUSHING (R177). -/
abbrev atWork (l : Lane) : Prop :=
  l.life = .running ∨ (∃ e, l.life = .stopping e) ∨ ∃ a, l.life = .flushing a

/-- The command reports a timed happening whose moment has come (R6, R10, R20, R32 to R34, R79, R99,
R101, R102, R155, R171). -/
def isDue (s : State) : Instr → Prop
  | .edgeAccepted n => let l := s.lane n
    ∃ c, l.fe.change = some c ∧ s.ctl.enable = true ∧ max 1 l.regs.minw.toNat
      ≤ tickDiff l.regs.div (s.time.count >>> l.regs.div.toNat) c.stamp.tick
  | .mtimeoutExpiry n => let l := s.lane n
    l.runs .meter ∧ ∃ u start, s.meters.heldBy n = some u
      ∧ ((s.meters.get u).state = .armed ∨ (s.meters.get u).state = .counting)
      ∧ (s.meters.get u).timeout = some start ∧ l.regs.mtimeout ≠ 0
      ∧ l.regs.mtimeout.toNat * 1024 ≤ (s.time.count - start).toNat
  | .gapPointReached n => let l := s.lane n
    l.runs .capture ∧ l.cap.cstate = .inFrame ∧ l.cap.waiting = false ∧ ∃ f, l.cap.frame = some f
      ∧ f.inMark = false ∧ l.regs.lgap.toNat
        ≤ tickDiff l.regs.div (s.time.count >>> l.regs.div.toNat) f.intervalStart
  | .markPointReached n => let l := s.lane n
    l.runs .capture ∧ l.cap.cstate = .inFrame ∧ l.cap.waiting = false ∧ ∃ f, l.cap.frame = some f
      ∧ f.inMark = true ∧ l.regs.maxmark.toNat
        ≤ tickDiff l.regs.div (s.time.count >>> l.regs.div.toNat) f.intervalStart
  | .tlimitExpiry n => let l := s.lane n
    l.runs .capture ∧ l.cap.cstate = .inFrame ∧ ∃ f, l.cap.frame = some f
      ∧ l.regs.tlimit ≠ 0 ∧ l.regs.tlimit.toNat * 1024 ≤ (s.time.count - f.start).toNat
  | .waitPointReached n => let l := s.lane n
    l.runs .capture ∧ (l.cap.cstate = .arming ∨ l.cap.cstate = .holdoff) ∧ l.cap.waiting = false
      ∧ l.filteredIdle ∧ l.regs.lgap.toNat
        ≤ tickDiff l.regs.div (s.time.count >>> l.regs.div.toNat) l.fe.lastEdge.tick
  | .firstIntervalBegin n => let l := s.lane n
    l.rep.rstate = .rPlay ∧ ∃ c, l.rep.current = some c ∧ c.playing = none ∧ c.tickSeen = true
  | .intervalEnd n => let l := s.lane n
    l.rep.rstate = .rPlay ∧ ∃ c p, l.rep.current = some c ∧ c.playing = some p ∧ p.left = 0
  | .trailingGapEnd n => let l := s.lane n
    l.rep.rstate = .rTrail ∧ ∃ c, l.rep.current = some c ∧ c.gapLeft = 0
  | .carrierPhase n => let l := s.lane n
    l.rep.rstate = .rPlay ∧ ∃ c p, l.rep.current = some c ∧ c.carrier = true
      ∧ c.playing = some p ∧ p.isMark = true
      ∧ (l.regs.cper.toNat ≤ c.carrierPhase
        ∨ (c.carrierActive = true ∧ l.regs.chigh.toNat ≤ c.carrierPhase))
  | .holdoffExpiry => ∃ h, s.queue.timer = some h ∧ h.length ≠ 0
      ∧ h.length.toNat * 1024 ≤ (s.time.count - h.start).toNat
  | .noResponse => ∃ b, s.bus.burst = some b ∧ b.cycle.limit.toNat ≤ b.cycle.elapsed
  | .deviceReset | .baseTick | .transition _ | .busGrant | .wordAck _ | .fetchComplete _ | .writeBack
  | .errorReply | .softResetComplete | .start _ _ | .stop _ _ | .abort _ _ | .skip _ _ | .flush _ _
  | .recover _ _ | .reset _ _ | .lcmdBadCommand _ _ _ | .snap | .note | .softReset | .gcmdUnknown _
  | .commit _ | .clear _ | .load _ | .pcmdBadCommand _ _ | .controlWrite _ | .prescWrite _
  | .resplimWrite _ | .irqctlWrite _ | .irqholdWrite _ | .evqpop _ | .fclr _ | .postedWrite _ _
  | .rbaseWrite _ _ _ | .rsizeWrite _ _ | .lcfgWrite _ _ | .registerWrite _ _ _ => False

/-- The place of a timed happening in the order the model takes those of one moment (log 8): the lanes in
rising order and within a lane as listed, then the interrupt holdoff, then the response limit. -/
def dueRank : Instr → Nat
  | .edgeAccepted n => 10 * n.val
  | .mtimeoutExpiry n => 10 * n.val + 1
  | .gapPointReached n => 10 * n.val + 2
  | .markPointReached n => 10 * n.val + 3
  | .tlimitExpiry n => 10 * n.val + 4
  | .waitPointReached n => 10 * n.val + 5
  | .firstIntervalBegin n => 10 * n.val + 6
  | .intervalEnd n => 10 * n.val + 7
  | .trailingGapEnd n => 10 * n.val + 8
  | .carrierPhase n => 10 * n.val + 9
  | .holdoffExpiry => 80
  | .noResponse => 81
  | .deviceReset | .baseTick | .transition _ | .busGrant | .wordAck _ | .fetchComplete _ | .writeBack
  | .errorReply | .softResetComplete | .start _ _ | .stop _ _ | .abort _ _ | .skip _ _ | .flush _ _
  | .recover _ _ | .reset _ _ | .lcmdBadCommand _ _ _ | .snap | .note | .softReset | .gcmdUnknown _
  | .commit _ | .clear _ | .load _ | .pcmdBadCommand _ _ | .controlWrite _ | .prescWrite _
  | .resplimWrite _ | .irqctlWrite _ | .irqholdWrite _ | .evqpop _ | .fclr _ | .postedWrite _ _
  | .rbaseWrite _ _ _ | .rsizeWrite _ _ | .lcfgWrite _ _ | .registerWrite _ _ _ => 82

/-! ## Frames -/

/-- The timebase, device control, the profile table, the staging set, PRESULT and the commands that
wait are unchanged. -/
abbrev sharedKept (s t : State) : Prop :=
  t.pending = s.pending ∧ t.time = s.time ∧ t.ctl = s.ctl ∧ t.table = s.table
    ∧ t.staging = s.staging ∧ t.presult = s.presult

/-- Every lane but `n` is unchanged. -/
abbrev othersKept (n : LaneId) (s t : State) : Prop := ∀ m, m ≠ n → t.lane m = s.lane m

/-- The bus master is unchanged, but that an IDLE one may have raised its bus request (R151). -/
abbrev busKept (s t : State) : Prop :=
  t.bus = s.bus ∨ (s.bus.bstate = .idle ∧ t.bus = { s.bus with bstate := .requesting })

/-- The command concerns lane `n` alone: everything shared is unchanged, the event queue and the meter
pool too, and at most a bus request is raised. -/
abbrev laneOnly (n : LaneId) (s t : State) : Prop :=
  sharedKept s t ∧ othersKept n s t ∧ busKept s t ∧ t.meters = s.meters ∧ t.queue = s.queue

/-- As `laneOnly`, and the events `es` were posted one after the other (R164). -/
abbrev lanePosts (n : LaneId) (es : List Event) (s t : State) : Prop :=
  sharedKept s t ∧ othersKept n s t ∧ busKept s t ∧ t.meters = s.meters
    ∧ t.queue = es.foldl (fun q e => q.post s.time.count e) s.queue

/-- The value of LANE_STOPPED after STOP and after ABORT (R186). -/
def endingCode : Ending → Word
  | .stop => 1
  | .abort => 2

/-- Lane `n` was left as `k` by a step of its frame assembler: it stays so, or, STOPPING with no frame
open and no record left, it becomes STOPPED and posts LANE_STOPPED (R43, R120). -/
abbrev captureLeaves (n : LaneId) (k : Lane) (s t : State) : Prop :=
  sharedKept s t ∧ othersKept n s t ∧ busKept s t ∧ t.meters = s.meters
    ∧ (k.life = .running ∨ k.cap.frame ≠ none ∨ k.cap.records ≠ [] → t.lane n = k ∧ t.queue = s.queue)
    ∧ ∀ e, k.life = .stopping e → k.cap.frame = none → k.cap.records = [] →
        t.lane n = { k with
          life := .stopped
          cap := { k.cap with cstate := .inactive, waiting := false }
          ring := k.ring.withdraw }
        ∧ t.queue = s.queue.post s.time.count ⟨.laneStopped, some n, endingCode e⟩

/-- The events a step of lane `n` posts, in their order (R164). -/
def eventsOf (n : LaneId) (posts : List Post) : List Event := posts.map fun p => ⟨p.1, some n, p.2⟩

/-- Lane `n` is left as `k`, its step having posted `posts`; of the meter pool nothing changes but unit
`u`, which is left as `m`. -/
abbrev meterLeaves (n : LaneId) (u : UnitId) (k : Lane) (m : MeterUnit) (posts : List Post)
    (s t : State) : Prop :=
  sharedKept s t ∧ othersKept n s t ∧ busKept s t ∧ t.lane n = k ∧ t.meters.get u = m
    ∧ (∀ v, v ≠ u → t.meters.get v = s.meters.get v)
    ∧ t.queue = (eventsOf n posts).foldl (fun q e => q.post s.time.count e) s.queue

/-- A measurement of unit `u`, held as `m`, is over on lane `n`, its result disposed of as `d`: with a
result in the slot the unit waits in M_RESULT, and with none the unit is released and the lane STOPPED
with `code` (R80, R85, R86). -/
abbrev measurementOver (n : LaneId) (u : UnitId) (m : MeterUnit) (d : LaneOut) (code : Word)
    (s t : State) : Prop :=
  (d.lane.result.isSome = true →
    meterLeaves n u d.lane { m with state := .result, timeout := none } d.posts s t)
  ∧ (d.lane.result = none →
    meterLeaves n u { d.lane with life := .stopped, ring := d.lane.ring.withdraw } .free
      (d.posts ++ [(.laneStopped, code)]) s t)

/-- A word cycle's outcome touched nothing but the bus, which was released and asked for again where a
lane presents a request (R151), and lane `n`. -/
abbrev burstEnded (n : LaneId) (s t : State) : Prop :=
  sharedKept s t ∧ othersKept n s t ∧ t.meters = s.meters ∧ t.queue = s.queue
    ∧ t.bus = { s.bus with
        bstate := if ∃ m, (t.lane m).request.isSome = true then .requesting else .idle }

/-- Lane `l` is `k` after a base tick (R99, R101, R102): the interval in progress and the trailing gap run
down by one, the carrier phase counts during a mark of a CARRIER record, a record in R_PLAY with no
interval begun notes that a tick has come, and nothing else of the lane changes. -/
abbrev baseTickOn (l k : Lane) : Prop :=
  k = { l with rep := { l.rep with current := k.rep.current } }
  ∧ (l.rep.current = none → k.rep.current = none)
  ∧ ∀ c, l.rep.current = some c →
    (∀ p, l.rep.rstate = .rPlay → c.playing = some p →
        k.rep.current = some { c with
          playing := some { p with left := p.left - 1 }
          carrierPhase := if c.carrier = true ∧ p.isMark = true then c.carrierPhase + 1
                          else c.carrierPhase })
    ∧ (l.rep.rstate = .rPlay → c.playing = none →
        k.rep.current = some { c with tickSeen := true })
    ∧ (l.rep.rstate = .rTrail → k.rep.current = some { c with gapLeft := c.gapLeft - 1 })
    ∧ (l.rep.rstate ≠ .rPlay → l.rep.rstate ≠ .rTrail → k.rep.current = some c)

/-- What an EMPTY spare slot of ring `r` becomes on a lane that may fetch: FETCHING the next descriptor,
where one is posted and the return slot is empty (R136). -/
def refilled (r : Ring) : Slot :=
  if r.ret = none ∧ r.posted ≠ r.consumed then
    .fetching (r.consumed.toNat % r.rsize.toNat) false []
  else .empty

/-- Lane `l`, its replay engine in R_WAIT, is `k` after the engine has taken descriptor `d`: the record is
current in R_LOAD, with nothing read and no pass completed (R93), or, its buffer at an odd address or
shorter than 4 words, has ended at once as MALFORMED (R94). Nothing else of the lane changes but the ring,
which is left as `r`. -/
abbrev replayTakes (l : Lane) (d : Desc) (r : Ring) (k : Lane) : Prop :=
  (d.addr.getLsbD 0 = false → 4 ≤ d.length.toNat →
    k.rep.rstate = .rLoad ∧ k.rep.finished = none ∧ k = { l with rep := k.rep, ring := r }
      ∧ ∃ c, k.rep.current = some c ∧ c.desc = d ∧ c.passes = 0 ∧ c.kind = none ∧ c.loaded = [])
  ∧ (d.addr.getLsbD 0 = true ∨ d.length.toNat < 4 →
    k = { l with fifo := [], rep := ⟨.rWait, none, some ⟨d, none, .malformed, 0⟩⟩, ring := r })

/-- Lane `n` entered FAULTED with `cause` and posted LANE_FAULT with `code` (R126): its records and its
result are counted into the dropped counter (R41, R87), its engines are at rest, the FIFO is empty and the
matchers OFF (R112), a fetch and a descriptor in the return slot are gone while a held spare stays (R137,
R146), and its meter units are free (R72). Nothing else of the lane or of the pool changes. -/
abbrev laneFaulted (n : LaneId) (cause : FaultCause) (code : Word) (s t : State) : Prop :=
  let l := s.lane n
  let k := t.lane n
  k = { l with
      life := .faulted cause
      dropped := l.dropped + (l.cap.records.map fun r => 1 + r.droppedBefore).sum
        + (match l.result with | some r => 1 + r.droppedBefore | none => 0)
      cap := ⟨.inactive, none, false, []⟩
      matchers := k.matchers
      fifo := []
      result := none
      rep := ⟨.inactive, none, none⟩
      ring := { l.ring with
        ret := none
        slot := match l.ring.slot with | .held d => .held d | _ => .empty } }
    ∧ (∀ i, (k.matchers.get i).state = .off)
    ∧ (∀ u, (s.meters.get u).claim = some n → (t.meters.get u).claim = none)
    ∧ (∀ u, (s.meters.get u).claim ≠ some n → t.meters.get u = s.meters.get u)
    ∧ t.queue = s.queue.post s.time.count ⟨.laneFault, some n, code⟩

/-! ## What the memory of the host holds -/

/-- The intervals that stand at the front of a FIFO, up to its first end marker (R38). -/
def leading (fifo : List FifoEntry) : Nat := (fifo.takeWhile fun e => decide (e ≠ .endMarker)).length

/-- The close codes of a record's header (R184). -/
def closeNumber : Close → BitVec 4
  | .gap => 1
  | .full => 2
  | .stuck => 3
  | .long => 4
  | .overrun => 5
  | .aborted => 6
  | .complete => 7
  | .timeout => 8

/-- The status codes of a descriptor's word 0 (R183). -/
def statusNumber : DescStatus → Word
  | .record => 1
  | .badBuffer => 2
  | .flushed => 3
  | .ok => 4
  | .malformed => 5
  | .underrun => 6
  | .aborted => 7
  | .stoppedEarly => 8
  | .profileChanged => 9

/-- A lane with replay record `c` that has taken a FILL word: the word is behind the FIFO and the count
of fetched words one higher; in R_FILL, with the smaller of n and 16 intervals held, play-out begins (R96,
R97). -/
def fillTaken (l : Lane) (c : ReplayRecord) (data : Word) : Lane :=
  { l with
    fifo := l.fifo ++ [.interval data]
    rep := if l.rep.rstate = .rFill ∧ min c.count.toNat 16 ≤ l.fifo.length + 1 then
        { l.rep with
          rstate := .rPlay
          current := some { c with
            fetched := c.fetched + 1, played := 0, playing := none, tickSeen := false } }
      else { l.rep with current := some { c with fetched := c.fetched + 1 } } }

/-! ## What the resets leave -/

/-- The values of R128 (and R16, R17, R44, R73, R87, R88, R113, R114, R147): a lane after a lane reset
at which its pin shows `line`, taken at count `count`, with LRESULT `result`. -/
abbrev laneResetValues (line : Level) (count : Stamp) (result : LResult) (l : Lane) : Prop :=
  l.regs.lmode = .none ∧ l.regs.idle = .low ∧ l.regs.driveStyle = .release ∧ l.regs.div = 0
    ∧ l.regs.minw = 1 ∧ l.regs.lgap = 1000 ∧ l.regs.maxmark = 65535 ∧ l.regs.maxiv = 1023
    ∧ l.regs.tlimit = 0 ∧ l.regs.pmask = 0 ∧ l.regs.mmode = 0 ∧ l.regs.cont = false
    ∧ l.regs.spread = false ∧ l.regs.mcount = 1 ∧ l.regs.mtimeout = 0 ∧ l.regs.cper = 2
    ∧ l.regs.chigh = 1
    ∧ l.line = line ∧ l.fe.sampled = line ∧ l.fe.filtered = line ∧ l.fe.change = none
    ∧ l.fe.lastEdge.base = count ∧ l.fe.lastEdge.tick = count
    ∧ l.life = .stopped ∧ l.lresult = result ∧ l.writeIgnored = false
    ∧ l.seq = 0 ∧ l.dropped = 0 ∧ l.dropWhy = .none ∧ l.skipCount = 0
    ∧ l.cap.cstate = .inactive ∧ l.cap.frame = none ∧ l.cap.records = []
    ∧ (∀ i, (l.matchers.get i).state = .off) ∧ l.fifo = [] ∧ l.result = none
    ∧ l.rep.rstate = .inactive ∧ l.rep.current = none ∧ l.rep.finished = none
    ∧ l.ring.rbase = 0 ∧ l.ring.rsize = 0 ∧ l.ring.posted = 0 ∧ l.ring.consumed = 0
    ∧ l.ring.slot = .empty ∧ l.ring.ret = none ∧ l.ring.ringEmpty = false
    ∧ l.ring.postRefused = false ∧ l.ring.flcount = 0

/-- The event queue after a soft or device reset (R173). -/
abbrev queueResetValues (q : EventQueue) : Prop :=
  q.entries = [] ∧ q.ie = false ∧ q.ithresh = 1 ∧ q.ihold = 0 ∧ q.timer = none
    ∧ q.expired = false

/-- The bus master after a soft or device reset, RESPLIM apart (R158, R160). -/
abbrev busResetValues (b : BusMaster) : Prop :=
  b.bstate = .idle ∧ b.ptr = 0 ∧ b.fault.valid = false ∧ b.fault.multi = false
    ∧ b.fault.addr = 0 ∧ b.fault.lane = 0 ∧ b.fault.isWrite = false ∧ b.fault.purpose = .fetch
    ∧ b.fault.errorReply = false

/-- The state a completed soft reset leaves (R179). -/
abbrev softResetDone (s t : State) : Prop :=
  t.pending = s.pending ∧ t.time = s.time ∧ t.ctl.enable = s.ctl.enable ∧ t.ctl.garg = s.ctl.garg
    ∧ t.ctl.resetPending = false ∧ t.ctl.refused = false ∧ t.table = s.table
    ∧ t.staging = s.staging ∧ t.presult = s.presult ∧ t.bus.resplim = s.bus.resplim
    ∧ busResetValues t.bus ∧ queueResetValues t.queue
    ∧ (∀ u, (t.meters.get u).claim = none)
    ∧ ∀ n, laneResetValues (s.lane n).line s.time.count .none (t.lane n)

/-! ## Registers of the window -/

/-- The byte offset of register `r` of lane `n`'s block (R174). -/
def laneOffset (n : LaneId) (r : Nat) : BitVec 10 := BitVec.ofNat 10 (0x100 + n.val * 0x40 + r)

/-- The plain configuration registers of a lane, as offsets in its block: LGAP to LCHI (R182). -/
def plainLaneRegs : List Nat := [0x02, 0x04, 0x06, 0x08, 0x0A, 0x0C, 0x0E, 0x10, 0x12, 0x14]

/-- The bits of a plain configuration register that the map names (R182). -/
def namedBits (r : Nat) : Word :=
  if r = 0x0A then 0x00FF else if r = 0x0C then 0x000F else 0xFFFF

/-- The read-only global registers (R182). -/
def readOnlyGlobals : List Nat :=
  [0x000, 0x002, 0x006, 0x010, 0x012, 0x014, 0x016, 0x018, 0x01A, 0x01C, 0x020, 0x022, 0x024,
    0x02E, 0x030]

/-- The read-only registers of a lane's block (R182). -/
def readOnlyLaneRegs : List Nat :=
  [0x1E, 0x22, 0x24, 0x26, 0x28, 0x2A, 0x2C, 0x2E, 0x30, 0x32, 0x34]

/-- Word offset `o` is unmapped (R182). -/
def unmapped (o : Nat) : Bool :=
  decide (0x032 ≤ o ∧ o < 0x080) || decide (0x0B4 ≤ o ∧ o < 0x100) || decide (0x300 ≤ o)
    || decide (0x100 ≤ o ∧ o < 0x300 ∧ 0x36 ≤ (o - 0x100) % 0x40)

/-- Word offset `o` holds a read-only register (R182). -/
def readOnly (o : Nat) : Bool :=
  readOnlyGlobals.contains o
    || (decide (0x100 ≤ o ∧ o < 0x300) && readOnlyLaneRegs.contains ((o - 0x100) % 0x40))

/-! ## Profiles -/

/-- The triple is used under the entry's flags (R46). -/
abbrev usedTriple (p : ProfileFields) (t : Triple) : Prop :=
  (p.hasLead = true ∧ (t = p.leadMark ∨ t = p.leadSpace))
    ∨ (p.hasRepeat = true ∧ t = p.repeatSpace)
    ∨ t = p.zeroMark ∨ t = p.zeroSpace ∨ t = p.oneMark ∨ t = p.oneSpace ∨ t = p.stopMark

/-- The matcher a frame starts for a VALID entry with fields `p`, after it has taken `vs` (R53 to R58). -/
def matcherAfter (p : ProfileFields) (vs : List Word) : Matcher :=
  vs.foldl (fun m v => m.step p v) (Profile.startMatcher ⟨true, p⟩)

/-- What a change of profile `ix` does to a lane's replay record (R68, R106). -/
abbrev replayChanged (ix : ProfileIx) (l k : Lane) : Prop :=
  match l.rep.current with
  | none => k.rep = l.rep ∧ k.fifo = l.fifo
  | some c =>
    if c.kind = some .code ∧ c.profile = ix then
      if l.rep.rstate = .rPlay then
        k.rep = { l.rep with current := some { c with endPending := true } } ∧ k.fifo = l.fifo
      else
        k.rep = ⟨.rWait, none, some ⟨c.desc, c.kind, .profileChanged, c.passes⟩⟩ ∧ k.fifo = []
    else k.rep = l.rep ∧ k.fifo = l.fifo

/-- What a change of profile `ix` does to a lane (R67, R68): a live matcher for it goes DEAD, a CODE
record naming it ends, and nothing else of the lane changes. -/
abbrev profileChangeOn (ix : ProfileIx) (l k : Lane) : Prop :=
  (k.matchers.get ix).state
      = (if (l.matchers.get ix).state.live then .dead else (l.matchers.get ix).state)
    ∧ (∀ j, j ≠ ix → k.matchers.get j = l.matchers.get j)
    ∧ replayChanged ix l k
    ∧ k = { l with matchers := k.matchers, rep := k.rep, fifo := k.fifo }

end Sys2Proof.Safety
end

