-- ==== Sys2Proof/Certificates/Slice0/Obligations.lean ====
section
/-! DEFINITION. The statements for the provers. Each docstring names the rules it formalises; a clause that
rests on a choice of the model names its log entry. -/

open Sys2Proof Sys2Proof.Machine Sys2Proof.Safety

/-! ## The step -/

/-- With a command at the front of the queue, a step is that command on the queue's rest. -/
def Obligations.StepRunsFrontCommand : Prop :=
  ∀ (c : Instr) (rest : List Instr) (s : State), s.pending = c :: rest →
    step s = exec c { s with pending := rest }

/-- With no command waiting a step takes a happening whose moment has come, the first of them in the order
of log 8 (lanes in rising order, on a lane the edge before the limits and those before replay, then the
interrupt holdoff and the response limit). With none due one core clock passes (log 8): the word cycle in
progress ages by one, and while ENABLE is 1 the prescaler phase counts, and a base tick comes when it
reaches PRESCALE, which the replay engines count (R2, R99, R101, R102, R155). Nothing else changes. That the
carrier phase keeps its value outside a mark of a CARRIER record is the model's choice (log 25). -/
def Obligations.IdleStepTakesDueOrOneClock : Prop :=
  ∀ s : State, s.pending = [] →
    (∀ c, isDue s c → (∀ d, isDue s d → dueRank c ≤ dueRank d) → step s = exec c s)
    ∧ ((∀ c, ¬ isDue s c) → ∃ t, step s = .next t
        ∧ t.pending = s.pending ∧ t.ctl = s.ctl ∧ t.table = s.table ∧ t.staging = s.staging
        ∧ t.presult = s.presult ∧ t.meters = s.meters ∧ t.queue = s.queue
        ∧ (s.ctl.enable = false → t.time = s.time ∧ t.lanes = s.lanes)
        ∧ (s.ctl.enable = true → s.time.phase + 1 < s.time.prescale.toNat →
            t.time = { s.time with phase := s.time.phase + 1 } ∧ t.lanes = s.lanes)
        ∧ (s.ctl.enable = true → s.time.prescale.toNat ≤ s.time.phase + 1 →
            t.time = { s.time with count := s.time.count + 1, phase := 0 }
            ∧ ∀ n, baseTickOn (s.lane n) (t.lane n))
        ∧ (∀ b, s.bus.burst = some b → t.bus = { s.bus with
            bstate := .owned { b with cycle := { b.cycle with elapsed := b.cycle.elapsed + 1 } } })
        ∧ (s.bus.burst = none → t.bus = s.bus))

/-- Every command completes from every state, and none touches the commands that wait behind it. That a
report which is not due or out of place completes with no effect is the model's choice (logs 1 and 15),
that BASE_TICK completes in every state with ENABLE 1 is another (log 4), and so is that DEVICE_RESET
keeps the commands that wait (logs 10 and 21). -/
def Obligations.EveryCommandCompletes : Prop :=
  ∀ (c : Instr) (s : State), ∃ t, exec c s = .next t ∧ t.pending = s.pending

/-- While a soft reset is pending every window write is ignored, wherever it is addressed and whatever it
carries; a device reset ends the soft reset (R180).
SOFT_RESET (R179): with no word cycle in progress the reset is complete in the one happening. With one
in progress the reset is pending and the burst ends with that cycle; the end of the cycle, by
acknowledge, error reply or the passing of its response limit, completes the reset, and so does the
report SOFT_RESET_COMPLETE whenever it comes (log 15). A NO_RESPONSE before the limit changes nothing (log
1). The pins are read at the level the board holds (log 3). -/
def Obligations.SoftResetIgnoresWritesAndCompletes : Prop :=
  (∀ s : State, s.ctl.resetPending = true →
    (∀ c, isWindowWrite c = true → exec c s = .next s)
    ∧ ∃ t, exec .deviceReset s = .next t ∧ t.ctl.resetPending = false)
  ∧ (∀ s : State, s.ctl.resetPending = false → s.bus.burst = none →
      ∃ t, exec .softReset s = .next t ∧ softResetDone s t)
  ∧ (∀ (s : State) (b : Burst), s.ctl.resetPending = false → s.bus.burst = some b →
      ∃ t, exec .softReset s = .next t ∧ t.ctl.resetPending = true ∧ t.ctl.refused = false
        ∧ t.bus.burst = some { b with remaining := 1 } ∧ t.lanes = s.lanes ∧ t.queue = s.queue
        ∧ t.meters = s.meters ∧ t.time = s.time ∧ t.table = s.table ∧ t.bus.fault = s.bus.fault)
  ∧ (∀ s : State, s.ctl.resetPending = true →
      ∃ t, exec .softResetComplete s = .next t ∧ softResetDone s t)
  ∧ ∀ (s : State) (b : Burst) (d : Word), s.ctl.resetPending = true → s.bus.burst = some b →
      (∀ c ∈ [Instr.wordAck d, .errorReply],
        ∃ t, exec c s = .next t ∧ softResetDone s t)
      ∧ (b.cycle.limit.toNat ≤ b.cycle.elapsed →
        ∃ t, exec .noResponse s = .next t ∧ softResetDone s t)
      ∧ (b.cycle.elapsed < b.cycle.limit.toNat → exec .noResponse s = .next s)

/-! ## Resets and time -/

/-- DEVICE_RESET leaves every state of the part at its device-reset value (R181). That the pins show the
level the board holds is log 3. -/
def Obligations.DeviceResetValues : Prop :=
  ∀ s : State, ∃ t, exec .deviceReset s = .next t
    ∧ t.ctl.enable = false ∧ t.ctl.resetPending = false ∧ t.ctl.refused = false ∧ t.ctl.garg = 0
    ∧ t.time.count = 0 ∧ t.time.phase = 0 ∧ t.time.prescale = 1 ∧ t.time.tsnap = 0
    ∧ (∀ i, (t.table.get i).valid = false ∧ (t.table.get i).fields = .zero)
    ∧ validMask t.table = 0 ∧ t.staging = .zero ∧ t.presult = .none
    ∧ (∀ u, (t.meters.get u).claim = none)
    ∧ busResetValues t.bus ∧ t.bus.resplim = 1024 ∧ queueResetValues t.queue
    ∧ t.queue.irq = false
    ∧ ∀ n, laneResetValues (s.lane n).line 0 .none (t.lane n)

/-- BASE_TICK (R1, R2): while ENABLE is 1 the count increases by one and the phase returns to 0; while
it is 0 nothing happens. The replay engines count the tick (R99, R101, R102): the interval in progress
and the trailing gap run down by one, the carrier phase counts during a mark of a CARRIER record, and a
record in R_PLAY with no interval begun notes that a tick has come. A word cycle in progress ages by the
core clocks that bring the tick (log 4). Nothing else changes. That the carrier phase keeps its value
outside a mark of a CARRIER record is the model's choice (log 25). -/
def Obligations.BaseTickCounts : Prop :=
  ∀ s : State,
    (s.ctl.enable = false → exec .baseTick s = .next s)
    ∧ (s.ctl.enable = true → ∃ t, exec .baseTick s = .next t
        ∧ t.time = { s.time with count := s.time.count + 1, phase := 0 }
        ∧ t.pending = s.pending ∧ t.ctl = s.ctl ∧ t.table = s.table ∧ t.staging = s.staging
        ∧ t.presult = s.presult ∧ t.meters = s.meters ∧ t.queue = s.queue
        ∧ (s.bus.burst = none → t.bus = s.bus)
        ∧ (∀ b, s.bus.burst = some b → t.bus = { s.bus with
            bstate := .owned { b with cycle := { b.cycle with
              elapsed := b.cycle.elapsed + (s.time.prescale.toNat - s.time.phase) } } })
        ∧ ∀ n, baseTickOn (s.lane n) (t.lane n))

/-- A write to CONTROL (R177, R2): setting ENABLE starts the phase at 0; clearing it is refused while any
lane is RUNNING, STOPPING or FLUSHING, and otherwise holds the count and clears the phase; a write of
the value held changes nothing. A write to PRESC (R2): taken while ENABLE is 0 for a value from 1 to
256, with no effect on the count or the phase, and refused otherwise. A taken write clears
CONTROL_REFUSED and a refused one sets it. -/
def Obligations.TimebaseControlWrites : Prop :=
  (∀ (s : State) (w : Word), s.ctl.resetPending = false →
    (w.getLsbD 0 = s.ctl.enable →
      exec (.controlWrite w) s = .next { s with ctl := { s.ctl with refused := false } })
    ∧ (w.getLsbD 0 = true → s.ctl.enable = false →
        exec (.controlWrite w) s = .next { s with
          ctl := { s.ctl with enable := true, refused := false }
          time := { s.time with phase := 0 } })
    ∧ (w.getLsbD 0 = false → s.ctl.enable = true → (∃ n, atWork (s.lane n)) →
        exec (.controlWrite w) s = .next { s with ctl := { s.ctl with refused := true } })
    ∧ (w.getLsbD 0 = false → s.ctl.enable = true → (∀ n, ¬ atWork (s.lane n)) →
        exec (.controlWrite w) s = .next { s with
          ctl := { s.ctl with enable := false, refused := false }
          time := { s.time with phase := 0 } }))
  ∧ (∀ (s : State) (w : Word), s.ctl.resetPending = false →
      (s.ctl.enable = true ∨ w.extractLsb' 0 9 = 0 ∨ 256 < (w.extractLsb' 0 9).toNat →
        exec (.prescWrite w) s = .next { s with ctl := { s.ctl with refused := true } })
      ∧ (s.ctl.enable = false → 1 ≤ (w.extractLsb' 0 9).toNat → (w.extractLsb' 0 9).toNat ≤ 256 →
          exec (.prescWrite w) s = .next { s with
            ctl := { s.ctl with refused := false }
            time := { s.time with prescale := w.extractLsb' 0 9 } }))

/-- RESPLIM (R161): bits [11:0] of the word are the value; 16 to 4095 is taken and reads back, a value below
16 is refused with CONTROL_REFUSED set, every word cycle begins with the value held then, a device
reset makes it 1024, and a soft reset and a lane reset keep it. -/
def Obligations.ResplimWriteTakenOrRefused : Prop :=
  (∀ (s : State) (w : Word), s.ctl.resetPending = false →
    (16 ≤ (w.extractLsb' 0 12).toNat → ∃ t, exec (.resplimWrite w) s = .next t
        ∧ t = { s with ctl := { s.ctl with refused := false }
                       bus := { s.bus with resplim := w.extractLsb' 0 12 } }
        ∧ t.readWindow 0x00A = w &&& 0x0FFF)
    ∧ ((w.extractLsb' 0 12).toNat < 16 →
        exec (.resplimWrite w) s = .next { s with ctl := { s.ctl with refused := true } }))
  ∧ (∀ (s : State) n p r base k, (s.beginCycle n p r base k).limit = s.bus.resplim)
  ∧ (∀ s : State, ∃ t, exec .deviceReset s = .next t ∧ t.readWindow 0x00A = 1024)
  ∧ (∀ s : State, ∀ c ∈ [Instr.softReset, .softResetComplete],
      ∃ t, exec c s = .next t ∧ t.bus.resplim = s.bus.resplim)
  ∧ ∀ (s : State) n a, ∃ t, exec (.reset n a) s = .next t ∧ t.bus.resplim = s.bus.resplim

/-! ## Global commands and the register window -/

/-- SNAP (R4): the count as it stands is copied whole into TSNAP, whatever ENABLE holds; a tick taken
before it is in the copy. TSNAP keeps its value until the next SNAP or device reset: no other command
changes it but a write to GCMD made through REGISTER_WRITE (log 7). NOTE (R165): a NOTE event with lane
DEVICE and the value of GARG is posted behind every event already in the queue, and no lane changes. -/
def Obligations.SnapCopiesCountNotePostsTag : Prop :=
  ((∀ s : State, s.ctl.resetPending = false →
    ∃ t, exec .snap s = .next t
      ∧ t = { s with ctl := { s.ctl with refused := false }
                     time := { s.time with tsnap := s.time.count } }
      ∧ t.readWindow 0x010 = s.time.count.extractLsb' 0 16
      ∧ t.readWindow 0x012 = s.time.count.extractLsb' 16 16)
  ∧ (∀ s t : State, s.ctl.resetPending = false → s.ctl.enable = true →
      exec .baseTick s = .next t →
      ∃ t', exec .snap t = .next t' ∧ t'.time.tsnap = s.time.count + 1)
  ∧ ∀ (c : Instr) (s t : State), exec c s = .next t →
      t.time.tsnap = s.time.tsnap ∨ c = .snap ∨ c = .deviceReset
        ∨ ∃ o w, c = .registerWrite .word o w ∧ wordOffset o = 0x00C)
  ∧ (∀ s : State, s.ctl.resetPending = false →
      exec .note s = .next { s with
        ctl := { s.ctl with refused := false }
        queue := s.queue.post s.time.count ⟨.note, none, s.ctl.garg⟩ })

/-- The host finds the identification words whatever the state, and cannot write them (R175).
REGISTER_WRITE (R174): a byte write has no effect anywhere; a word write to a read-only register or an
unmapped offset is ignored; a write to GARG is taken in any state. -/
def Obligations.RegisterWriteAccess : Prop :=
  (∀ s : State, s.readWindow 0x000 = 0x2408 ∧ s.readWindow 0x002 = 0x0001
    ∧ ∀ w, exec (.registerWrite .word 0x000 w) s = .next s
        ∧ exec (.registerWrite .word 0x002 w) s = .next s)
  ∧ ((∀ (s : State) o w, exec (.registerWrite .byte o w) s = .next s)
    ∧ (∀ (s : State) (o : BitVec 10) w,
        readOnly (wordOffset o) = true ∨ unmapped (wordOffset o) = true →
        exec (.registerWrite .word o w) s = .next s)
    ∧ ∀ (s : State) w, s.ctl.resetPending = false →
        exec (.registerWrite .word 0x00E w) s = .next { s with ctl := { s.ctl with garg := w } })

/-- A write to the staging set changes that field alone and reads back, whatever the lanes and the table
hold (R47): PFLAGS keeps three bits, every other word all sixteen. A configuration register of a
STOPPED lane takes a write and reads it back within its named bits, and no other configuration register
of the lane changes; in every other state of the lane the write is ignored and WRITE_IGNORED is set
(R17, R73, R88, R125). -/
def Obligations.RegisterWriteStoresField : Prop :=
  (∀ (s : State) (k : Nat) (w : Word), k < 26 → s.ctl.resetPending = false →
    let o := BitVec.ofNat 10 (0x080 + 2 * k)
    ∃ t, exec (.registerWrite .word o w) s = .next t
      ∧ t.readWindow o = w &&& (if k = 0 then 0x0007 else 0xFFFF)
      ∧ t = { s with staging := t.staging }
      ∧ ∀ j, j < 26 → j ≠ k →
          t.readWindow (BitVec.ofNat 10 (0x080 + 2 * j)) = s.readWindow (BitVec.ofNat 10 (0x080 + 2 * j)))
  ∧ (∀ (s : State) (n : LaneId) (r : Nat) (w : Word), r ∈ plainLaneRegs → s.ctl.resetPending = false →
      ((s.lane n).life = .stopped → ∃ t, exec (.registerWrite .word (laneOffset n r) w) s = .next t
          ∧ t.readWindow (laneOffset n r) = w &&& namedBits r
          ∧ t = s.setLane n { s.lane n with regs := (t.lane n).regs }
          ∧ ∀ q ∈ 0 :: plainLaneRegs, q ≠ r → t.readLaneReg n q = s.readLaneReg n q)
      ∧ ((s.lane n).life ≠ .stopped →
          exec (.registerWrite .word (laneOffset n r) w) s
            = .next (s.setLane n { s.lane n with writeIgnored := true })))

/-- A write with a code that names no command: to GCMD it is refused (R178, R176), to PCMD it sets PRESULT
to BAD_COMMAND (R48), to LCMD it gives BAD_COMMAND in every state of the lane (R115); it changes nothing
else.
A word write at the offset of a register that has a row of its own does what that row does, for every
code that GCMD, PCMD and LCMD can carry (log 7; the offsets and codes are R182's). -/
def Obligations.CommandCodesAndRowsAgree : Prop :=
  (∀ (s : State) (code : BitVec 4), s.ctl.resetPending = false → code = 0 ∨ 3 < code.toNat →
    exec (.gcmdUnknown code) s = .next { s with ctl := { s.ctl with refused := true } })
  ∧ (∀ (s : State) (code : BitVec 4) (ix : ProfileIx), s.ctl.resetPending = false →
      code = 0 ∨ 3 < code.toNat →
      exec (.pcmdBadCommand code ix) s = .next { s with presult := .badCommand })
  ∧ (∀ (s : State) (n : LaneId) (code : BitVec 4) (arg : BitVec 12), s.ctl.resetPending = false →
      code = 0 ∨ 7 < code.toNat →
      exec (.lcmdBadCommand n code arg) s
        = .next (s.setLane n { s.lane n with lresult := .badCommand }))
  ∧ ∀ (s : State) (w : Word) (n : LaneId),
    let at0 (o : BitVec 10) := exec (.registerWrite .word o w) s
    let code : BitVec 4 := w.extractLsb' 0 4
    let ix : ProfileIx := (w.extractLsb' 8 3).toFin
    let arg : BitVec 12 := w.extractLsb' 4 12
    let lcmd := at0 (laneOffset n 0x20)
    at0 0x004 = exec (.controlWrite w) s ∧ at0 0x008 = exec (.prescWrite w) s
    ∧ at0 0x00A = exec (.resplimWrite w) s ∧ at0 0x028 = exec (.irqctlWrite w) s
    ∧ at0 0x02A = exec (.irqholdWrite w) s ∧ at0 0x026 = exec (.evqpop w) s
    ∧ at0 0x01E = exec (.fclr w) s
    ∧ (code = 1 → at0 0x00C = exec .snap s ∧ at0 0x02C = exec (.commit ix) s
        ∧ lcmd = exec (.start n arg) s)
    ∧ (code = 2 → at0 0x00C = exec .note s ∧ at0 0x02C = exec (.clear ix) s
        ∧ lcmd = exec (.stop n arg) s)
    ∧ (code = 3 → at0 0x00C = exec .softReset s ∧ at0 0x02C = exec (.load ix) s
        ∧ lcmd = exec (.abort n arg) s)
    ∧ (code = 0 ∨ 3 < code.toNat → at0 0x00C = exec (.gcmdUnknown code) s
        ∧ at0 0x02C = exec (.pcmdBadCommand code ix) s)
    ∧ (code = 4 → lcmd = exec (.skip n arg) s)
    ∧ (code = 5 → lcmd = exec (.flush n arg) s)
    ∧ (code = 6 → lcmd = exec (.recover n arg) s)
    ∧ (code = 7 → lcmd = exec (.reset n arg) s)
    ∧ (code = 0 ∨ 7 < code.toNat → lcmd = exec (.lcmdBadCommand n code arg) s)
    ∧ at0 (laneOffset n 0x00) = exec (.lcfgWrite n w) s
    ∧ at0 (laneOffset n 0x16) = exec (.rbaseWrite n false w) s
    ∧ at0 (laneOffset n 0x18) = exec (.rbaseWrite n true w) s
    ∧ at0 (laneOffset n 0x1A) = exec (.rsizeWrite n w) s
    ∧ at0 (laneOffset n 0x1C) = exec (.postedWrite n w) s

/-- The status registers of a lane show its state at the places and in the codes of R182: LRESULT, LSTAT
(R114), LCAPST, LSEQ and LDROP (R18), LMST (R74; MITEMS 0 in M_RESULT is log 9), LRPST (R89; RKIND and
PASSES show a finished record until its write-back, as R107 and R108 state), LRSTAT (R133), CONSUMED and
LFCOUNT. The global ones: STATUS (R176), MPOOL (R71; the LANE field of a free unit is log 14's free
value), BMSTAT (R153), FSTAT and FADDR (R158), EVQ0, EVQ1 and EVQCOUNT (R166, R186), PRESULT and PVALID
(R45, R48). A byte read gives the half of the word its address names (R174). -/
def Obligations.StatusRegistersShowState : Prop :=
  (∀ (s : State) (n : LaneId),
    let l := s.lane n
    let r (q : Nat) : Word := s.readWindow (laneOffset n q)
    r 0x22 = (match l.lresult with
        | .none => 0 | .accepted => 1 | .busy => 2 | .badConfig => 3 | .disabled => 4 | .noMeter => 5
        | .badCommand => 6)
    ∧ (r 0x24).extractLsb' 0 3 = (match l.life with
        | .stopped => 0 | .running => 1 | .stopping _ => 2 | .flushing _ => 3 | .faulted _ => 4)
    ∧ (r 0x24).extractLsb' 3 2 = (match l.life with
        | .stopping .stop => 1 | .stopping .abort => 2 | _ => 0)
    ∧ (r 0x24).extractLsb' 5 2 = (match l.life with
        | .faulted .noResponse => 1 | .faulted .errorReply => 2 | .faulted .descOwner => 3 | _ => 0)
    ∧ (r 0x24).getLsbD 7 = l.writeIgnored ∧ (r 0x24).extractLsb' 8 8 = 0
    ∧ (r 0x26).extractLsb' 0 3 = (match l.cap.cstate with
        | .inactive => 0 | .arming => 1 | .listen => 2 | .inFrame => 3 | .holdoff => 4)
    ∧ (r 0x26).extractLsb' 4 2 = BitVec.ofNat 2 l.cap.records.length
    ∧ (r 0x26).extractLsb' 6 10 = BitVec.ofNat 10 l.skipCount
    ∧ r 0x28 = l.seq ∧ r 0x2A = l.dropped
    ∧ r 0x2C = (match l.dropWhy with | .none => 0 | .skipped => 1 | .noSlot => 2 | .noBuffer => 3)
    ∧ (r 0x2E).getLsbD 4 = l.result.isSome
    ∧ (s.meters.heldBy n = none → (r 0x2E).extractLsb' 0 4 = 0 ∧ (r 0x2E).extractLsb' 6 10 = 0)
    ∧ (∀ u, s.meters.heldBy n = some u →
        (r 0x2E).extractLsb' 0 2 = (if u = 0 then 1 else 2)
        ∧ (r 0x2E).extractLsb' 2 2 = (match (s.meters.get u).state with
            | .inactive => 0 | .armed => 1 | .counting => 2 | .result => 3)
        ∧ (r 0x2E).extractLsb' 6 10 = (if (s.meters.get u).state = .result then 0
            else BitVec.ofNat 10 (s.meters.get u).items))
    ∧ (r 0x30).extractLsb' 0 3 = (match l.rep.rstate with
        | .inactive => 0 | .rWait => 1 | .rLoad => 2 | .rFill => 3 | .rPlay => 4 | .rTrail => 5)
    ∧ (r 0x30).getLsbD 5 = l.rep.finished.isSome
    ∧ (∀ c, l.rep.current = some c →
        (r 0x30).extractLsb' 3 2 = (match c.kind with
          | none => 0 | some .intervals => 1 | some .code => 2)
        ∧ (r 0x30).extractLsb' 6 9 = BitVec.ofNat 9 c.passes)
    ∧ (∀ f, l.rep.current = none → l.rep.finished = some f →
        (r 0x30).extractLsb' 3 2 = (match f.kind with
          | none => 0 | some .intervals => 1 | some .code => 2)
        ∧ (r 0x30).extractLsb' 6 9 = BitVec.ofNat 9 f.passes)
    ∧ (l.rep.current = none → l.rep.finished = none →
        (r 0x30).extractLsb' 3 2 = 0 ∧ (r 0x30).extractLsb' 6 9 = 0)
    ∧ (r 0x32).extractLsb' 0 2 = (match l.ring.slot with
        | .empty => 0 | .fetching _ _ _ => 1 | .held _ => 2)
    ∧ (r 0x32).extractLsb' 8 8 = (match l.ring.slot with
        | .empty => 0 | .fetching i _ _ => BitVec.ofNat 8 i | .held d => BitVec.ofNat 8 d.index)
    ∧ (r 0x32).extractLsb' 2 2 = (match l.ring.ret with
        | none => 0 | some ⟨_, .badBuffer⟩ => 1 | some ⟨_, .flushed⟩ => 2)
    ∧ (r 0x32).getLsbD 4 = l.ring.ringEmpty ∧ (r 0x32).getLsbD 5 = l.ring.postRefused
    ∧ r 0x1E = l.ring.consumed ∧ r 0x34 = l.ring.flcount)
  ∧ ∀ s : State,
    let r (o : BitVec 10) : Word := s.readWindow o
    let purpose (p : Purpose) : BitVec 3 := match p with
      | .fetch => 1 | .drain => 2 | .decode => 3 | .header => 4 | .writeback => 5 | .fill => 6
      | .load => 7
    (r 0x006).getLsbD 0 = s.ctl.resetPending ∧ (r 0x006).getLsbD 1 = s.ctl.refused
    ∧ (r 0x006).extractLsb' 2 14 = 0
    ∧ (r 0x014).getLsbD 0 = s.meters.meter0.claim.isSome
    ∧ (r 0x014).getLsbD 8 = s.meters.meter1.claim.isSome
    ∧ (∀ n : LaneId, s.meters.meter0.claim = some n → ((r 0x014).extractLsb' 1 3).toNat = n.val)
    ∧ (∀ n : LaneId, s.meters.meter1.claim = some n → ((r 0x014).extractLsb' 9 3).toNat = n.val)
    ∧ ((r 0x016).extractLsb' 12 3).toNat = s.bus.ptr.val
    ∧ (s.bus.bstate = .idle → (r 0x016).extractLsb' 0 12 = 0)
    ∧ (s.bus.bstate = .requesting → (r 0x016).extractLsb' 0 12 = 1)
    ∧ (∀ b, s.bus.bstate = .owned b → (r 0x016).extractLsb' 0 2 = 2
        ∧ (r 0x016).extractLsb' 2 3 = purpose b.purpose
        ∧ ((r 0x016).extractLsb' 5 3).toNat = b.lane.val
        ∧ (r 0x016).extractLsb' 8 4 = BitVec.ofNat 4 b.remaining)
    ∧ (r 0x018).getLsbD 0 = s.bus.fault.valid ∧ (r 0x018).getLsbD 1 = s.bus.fault.multi
    ∧ (r 0x018).getLsbD 2 = s.bus.fault.isWrite ∧ (r 0x018).getLsbD 12 = s.bus.fault.errorReply
    ∧ ((r 0x018).extractLsb' 4 3).toNat = s.bus.fault.lane.val
    ∧ (r 0x018).extractLsb' 8 3 = purpose s.bus.fault.purpose
    ∧ r 0x01A = s.bus.fault.addr.extractLsb' 0 16
    ∧ (r 0x01C).extractLsb' 0 8 = s.bus.fault.addr.extractLsb' 16 8
    ∧ (r 0x01C).extractLsb' 8 8 = 0
    ∧ (s.queue.entries = [] → r 0x020 = 0 ∧ r 0x022 = 0)
    ∧ (∀ e rest, s.queue.entries = e :: rest → r 0x022 = e.value
        ∧ (r 0x020).extractLsb' 0 4 = (match e.kind with
            | .frameRecord => 1 | .meterRecord => 2 | .replayDone => 3 | .ringEmpty => 4
            | .laneStopped => 5 | .flushDone => 6 | .laneFault => 7 | .note => 8 | .overflow => 9)
        ∧ ((r 0x020).extractLsb' 8 4).toNat = (match e.lane with | some n => n.val | none => 15))
    ∧ (r 0x024).extractLsb' 0 6 = BitVec.ofNat 6 s.queue.entries.length
    ∧ (r 0x024).getLsbD 8 = s.queue.expired
    ∧ r 0x02E = (match s.presult with
        | .none => 0 | .ok => 1 | .badRange => 2 | .badNominal => 3 | .badBits => 4
        | .repeatNeedsLead => 5 | .ambiguous => 6 | .badCommand => 7)
    ∧ (∀ i : ProfileIx, (r 0x030).getLsbD i.val = (s.table.get i).valid)
    ∧ (r 0x030).extractLsb' 8 8 = 0
    ∧ ∀ o : BitVec 10, s.readByte o
        = (r o).extractLsb' (if o.toNat % 2 = 0 then 0 else 8) 8

/-! ## The event queue -/

/-- A post (R163), for a queue of at most 32 entries whose 32nd, where it has one, is OVERFLOW. One into an
empty queue starts the holdoff timer for IHOLD coarse units, and none for IHOLD 0 (R171); any other leaves
the timer. -/
def Obligations.PostTakesOneEvent : Prop :=
  ∀ (q : EventQueue) (now : Stamp) (e : Event),
    q.entries.length ≤ 32 → (q.entries.length = 32 → newestIsOverflow q.entries = true) →
    (q.entries.length ≤ 30 → (q.post now e).entries = q.entries ++ [e])
    ∧ (q.entries.length = 31 → newestIsOverflow q.entries = false →
        (q.post now e).entries = q.entries ++ [⟨.overflow, none, 1⟩])
    ∧ (∀ older newest, q.entries = older ++ [newest] → 31 ≤ q.entries.length →
        newest.kind = .overflow →
        (q.post now e).entries
          = older ++ [{ newest with value := if newest.value = 65535 then 65535
                                             else newest.value + 1 }])
    ∧ (q.post now e).entries.length ≤ 32
    ∧ ((q.post now e).entries.length = 32 → newestIsOverflow (q.post now e).entries = true)
    ∧ (q.entries = [] → (q.post now e).timer = if q.ihold = 0 then none else some ⟨now, q.ihold⟩)
    ∧ (q.entries ≠ [] → (q.post now e).timer = q.timer)
    ∧ (q.post now e).ie = q.ie ∧ (q.post now e).ithresh = q.ithresh
    ∧ (q.post now e).ihold = q.ihold ∧ (q.post now e).expired = q.expired

/-- EVQPOP (R167): a word write removes the oldest entry whatever value it carries; the holdoff timer
restarts if entries are left, and stops with the latch cleared if none are (R171, R172); an empty
queue is unchanged; a byte write removes nothing; a pending soft reset ignores the write. -/
def Obligations.PopRemovesOldest : Prop :=
  (∀ (s : State) (w : Word), s.ctl.resetPending = false →
    (s.queue.entries = [] → exec (.evqpop w) s = .next s)
    ∧ (∀ e, s.queue.entries = [e] → exec (.evqpop w) s
        = .next { s with queue := { s.queue with entries := [], timer := none, expired := false } })
    ∧ (∀ e f rest, s.queue.entries = e :: f :: rest → exec (.evqpop w) s
        = .next { s with queue := { s.queue with
            entries := f :: rest
            timer := if s.queue.ihold = 0 then none
                     else some ⟨s.time.count, s.queue.ihold⟩ } }))
  ∧ (∀ (s : State) o w, wordOffset o = 0x026 → exec (.registerWrite .byte o w) s = .next s)
  ∧ ∀ (s : State) (w : Word), s.ctl.resetPending = true → exec (.evqpop w) s = .next s

/-- The interrupt request is asserted exactly while IE is 1 and COUNT reaches ITHRESH or the holdoff latch
is set, and IRQLVL shows it (R169). -/
def Obligations.InterruptRequestLevel : Prop :=
  ∀ s : State,
    (s.irq = true ↔ s.queue.ie = true
      ∧ (s.queue.ithresh.toNat ≤ s.queue.entries.length ∨ s.queue.expired = true))
    ∧ (s.readWindow 0x024).getLsbD 9 = s.irq

/-- A write to IRQCTL sets IE and ITHRESH together, and is refused whole for ITHRESH 0 or above 32 (R170).
A write to IRQHOLD is taken for every value: it stops the timer for 0, starts it afresh over a queue that
holds an entry, leaves a timer over an empty queue as it is, and does not change the latch or
CONTROL_REFUSED (R170, R171). HOLDOFF_EXPIRY (R171, R172): a running timer whose limit is reached sets
the latch and stops; with no timer, or one not yet at its limit, nothing changes (log 1). -/
def Obligations.InterruptSettingsAndHoldoff : Prop :=
  (∀ (s : State) (w : Word), s.ctl.resetPending = false →
    (w.extractLsb' 8 6 = 0 ∨ 32 < (w.extractLsb' 8 6).toNat →
      exec (.irqctlWrite w) s = .next { s with ctl := { s.ctl with refused := true } })
    ∧ (1 ≤ (w.extractLsb' 8 6).toNat → (w.extractLsb' 8 6).toNat ≤ 32 →
        exec (.irqctlWrite w) s = .next { s with
          ctl := { s.ctl with refused := false }
          queue := { s.queue with ie := w.getLsbD 0, ithresh := w.extractLsb' 8 6 } }))
  ∧ (∀ (s : State) (w : Word), s.ctl.resetPending = false →
      ∃ t, exec (.irqholdWrite w) s = .next t ∧ t.queue.ihold = w
        ∧ (w = 0 → t.queue.timer = none)
        ∧ (w ≠ 0 → s.queue.entries ≠ [] → t.queue.timer = some ⟨s.time.count, w⟩)
        ∧ (w ≠ 0 → s.queue.entries = [] → t.queue.timer = s.queue.timer)
        ∧ t = { s with queue := { s.queue with ihold := w, timer := t.queue.timer } })
  ∧ (∀ s : State,
      (∀ h, s.queue.timer = some h → h.length ≠ 0 →
        h.length.toNat * 1024 ≤ (s.time.count - h.start).toNat →
        exec .holdoffExpiry s
          = .next { s with queue := { s.queue with expired := true, timer := none } })
      ∧ (∀ h, s.queue.timer = some h → (s.time.count - h.start).toNat < h.length.toNat * 1024 →
          exec .holdoffExpiry s = .next s)
      ∧ (s.queue.timer = none → exec .holdoffExpiry s = .next s))

/-! ## Signal profiles -/

/-- COMMIT's five checks are judged in their order, and the first that fails gives PRESULT (R49, with R46's
used triples). COMMIT (R50, R67, R68): a staging set that fails a check leaves everything but PRESULT as it
was; one that passes becomes the entry at INDEX, which is VALID, with PVALID's bit set, the staging set
and the other entries kept. CLEAR (R51): the entry becomes EMPTY with every field 0 and PVALID's bit 0,
whatever it held. Either stops the work bound to INDEX on every lane. -/
def Obligations.CommitChecksAndChanges : Prop :=
  (∀ p : ProfileFields,
    let range := ∀ t, usedTriple p t → 1 ≤ t.min ∧ t.min ≤ t.max
    let nominal := ∀ t, usedTriple p t → t.min ≤ t.nom ∧ t.nom ≤ t.max
    let bits := 1 ≤ p.bitMin ∧ p.bitMin ≤ p.bitMax ∧ p.bitMax ≤ 64
    let lead := p.hasRepeat = false ∨ p.hasLead = true
    let apart := (¬ p.zeroMark.overlaps p.oneMark ∨ ¬ p.zeroSpace.overlaps p.oneSpace)
      ∧ (p.hasRepeat = true → ¬ p.leadSpace.overlaps p.repeatSpace)
    (p.commitResult = .badRange ↔ ¬ range)
    ∧ (p.commitResult = .badNominal ↔ range ∧ ¬ nominal)
    ∧ (p.commitResult = .badBits ↔ range ∧ nominal ∧ ¬ bits)
    ∧ (p.commitResult = .repeatNeedsLead ↔ range ∧ nominal ∧ bits ∧ ¬ lead)
    ∧ (p.commitResult = .ambiguous ↔ range ∧ nominal ∧ bits ∧ lead ∧ ¬ apart)
    ∧ (p.commitResult = .ok ↔ range ∧ nominal ∧ bits ∧ lead ∧ apart))
  ∧ (∀ (s : State) (ix : ProfileIx), s.ctl.resetPending = false →
    (s.staging.commitResult ≠ .ok →
      exec (.commit ix) s = .next { s with presult := s.staging.commitResult })
    ∧ (s.staging.commitResult = .ok → ∃ t, exec (.commit ix) s = .next t
        ∧ t.presult = .ok ∧ t.table.get ix = ⟨true, s.staging⟩
        ∧ (validMask t.table).getLsbD ix.val = true
        ∧ (∀ j, j ≠ ix → t.table.get j = s.table.get j)
        ∧ (∀ n, profileChangeOn ix (s.lane n) (t.lane n))
        ∧ t.staging = s.staging ∧ t.pending = s.pending ∧ t.time = s.time ∧ t.ctl = s.ctl
        ∧ t.meters = s.meters ∧ t.queue = s.queue ∧ busKept s t))
  ∧ (∀ (s : State) (ix : ProfileIx), s.ctl.resetPending = false →
      ∃ t, exec (.clear ix) s = .next t
        ∧ t.presult = .ok ∧ t.table.get ix = ⟨false, .zero⟩
        ∧ (validMask t.table).getLsbD ix.val = false
        ∧ (∀ j, j ≠ ix → t.table.get j = s.table.get j)
        ∧ (∀ n, profileChangeOn ix (s.lane n) (t.lane n))
        ∧ t.staging = s.staging ∧ t.pending = s.pending ∧ t.time = s.time ∧ t.ctl = s.ctl
        ∧ t.meters = s.meters ∧ t.queue = s.queue ∧ busKept s t)

/-- LOAD (R52): the staging set takes every field of the entry at INDEX, zeros for an EMPTY entry, and
PRESULT reads OK; the table, PVALID and every lane are unchanged. -/
def Obligations.LoadCopiesEntry : Prop :=
  ∀ (s : State) (ix : ProfileIx), s.ctl.resetPending = false →
    exec (.load ix) s = .next { s with presult := .ok, staging := (s.table.get ix).fields }
    ∧ (profileOk (s.table.get ix) → (s.table.get ix).valid = false →
        ∃ t, exec (.load ix) s = .next t ∧ t.staging = .zero)

/-- What the encoder sends, a matcher of the same profile reads (R64, R65, R62, R60): for an entry that
passes the commit checks, the intervals of the DATA form with `n` bits within its bounds bring a
matcher started for it to succeed at a GAP close as DATA with `n` bits and the low `n` bits of the
value, and those of the REPEAT form to succeed as REPEAT. -/
def Obligations.EncodedSignalDecodes : Prop :=
  ∀ (p : ProfileFields) (ix : ProfileIx), p.commitResult = .ok →
    (∀ (n : Nat) (value : BitVec 64), p.bitMin.toNat ≤ n → n ≤ p.bitMax.toNat →
      ∃ read, (matcherAfter p (p.dataIntervals n value)).outcome p ix = some ⟨ix, false, n, read⟩
        ∧ ∀ k, k < 64 → read.getLsbD k = (decide (k < n) && value.getLsbD k))
    ∧ (p.hasRepeat = true →
        (matcherAfter p p.repeatIntervals).outcome p ix = some ⟨ix, true, 0, 0⟩)

/-! ## The lane front end -/

/-- TRANSITION on a sampling lane (R8, R9, R11): with no change pending it begins one with both stamps of
this moment; with one pending it absorbs it. The filtered level and the last accepted edge are
unchanged, and with no engine at work nothing else of the lane is touched (R14). On a lane that does
not sample only the line changes (R8, log 3). On a capture lane at work with no decision waiting, a glitch
absorbed in an open frame raises the frame's count by one, saturating at 255, and does nothing else (R11,
R29); one absorbed with no frame open is discarded (R20, R21). -/
def Obligations.TransitionBeginsOrAbsorbs : Prop :=
  (∀ (s : State) (n : LaneId), ∃ t, exec (.transition n) s = .next t
    ∧ sharedKept s t ∧ othersKept n s t ∧ t.meters = s.meters
    ∧ ((s.lane n).regs.lmode = .none ∨ (s.lane n).regs.lmode = .replay →
        t.lane n = { s.lane n with line := (s.lane n).line.flip } ∧ t.queue = s.queue)
    ∧ ((s.lane n).regs.lmode = .capture ∨ (s.lane n).regs.lmode = .meter →
        (t.lane n).fe.sampled = (s.lane n).fe.sampled.flip
        ∧ (t.lane n).line = (s.lane n).fe.sampled.flip
        ∧ (t.lane n).fe.filtered = (s.lane n).fe.filtered
        ∧ (t.lane n).fe.lastEdge = (s.lane n).fe.lastEdge
        ∧ ((s.lane n).fe.change = none →
            (t.lane n).fe.change
              = some ⟨⟨s.time.count, s.time.count >>> (s.lane n).regs.div.toNat⟩,
                  (s.lane n).fe.sampled.flip⟩
            ∧ t.lane n = { s.lane n with line := (t.lane n).line, fe := (t.lane n).fe }
            ∧ t.queue = s.queue)
        ∧ ((s.lane n).fe.change ≠ none → (t.lane n).fe.change = none)
        ∧ ((s.lane n).fe.change ≠ none → ¬ (s.lane n).runs .capture →
            t.lane n = { s.lane n with line := (t.lane n).line, fe := (t.lane n).fe }
            ∧ t.queue = s.queue)))
  ∧ (∀ (s : State) (n : LaneId), (s.lane n).runs .capture → (s.lane n).cap.waiting = false →
      (s.lane n).fe.change ≠ none →
      ∃ t, exec (.transition n) s = .next t ∧ t.queue = s.queue
        ∧ (∀ f, (s.lane n).cap.cstate = .inFrame → (s.lane n).cap.frame = some f →
          t.lane n = { s.lane n with
            line := (t.lane n).line
            fe := (t.lane n).fe
            cap := { (s.lane n).cap with frame := some { f with
              glitches := if f.glitches + 1 ≤ 255 then f.glitches + 1 else 255 } } })
        ∧ ((s.lane n).cap.cstate ≠ .inFrame ∨ (s.lane n).cap.frame = none →
          t.lane n = { s.lane n with line := (t.lane n).line, fe := (t.lane n).fe }))

/-- EDGE_ACCEPTED (R10, R12, R14): once the pending change has lasted MINW lane ticks (1 for MINW 0), and
while ENABLE is 1, the filtered level becomes the change's level and the last accepted edge takes the
change's own stamps. Before that, with no change, or with ENABLE 0, nothing happens (log 1). With no
engine at work nothing but the front end changes. -/
def Obligations.EdgeAcceptedAfterMinimumWidth : Prop :=
  ∀ (s : State) (n : LaneId),
    let l := s.lane n
    (∀ c, l.fe.change = some c → s.ctl.enable = true →
      max 1 l.regs.minw.toNat
        ≤ ((s.time.count >>> l.regs.div.toNat) - c.stamp.tick).toNat % 2 ^ (32 - l.regs.div.toNat) →
      ∃ t, exec (.edgeAccepted n) s = .next t
        ∧ (t.lane n).fe = { l.fe with filtered := c.level, change := none, lastEdge := c.stamp }
        ∧ sharedKept s t ∧ othersKept n s t
        ∧ (l.life.active = false →
            t.lane n = { l with fe := (t.lane n).fe } ∧ t.queue = s.queue ∧ t.meters = s.meters))
    ∧ (l.fe.change = none ∨ s.ctl.enable = false → exec (.edgeAccepted n) s = .next s)
    ∧ (∀ c, l.fe.change = some c →
        ((s.time.count >>> l.regs.div.toNat) - c.stamp.tick).toNat % 2 ^ (32 - l.regs.div.toNat)
          < max 1 l.regs.minw.toNat →
        exec (.edgeAccepted n) s = .next s)

/-- An accepted edge reaches the engine at work (R14). A capture lane in LISTEN and RUNNING begins a frame at
an active-going edge (R21), which closes in the same happening as LONG if the time limit has passed since
the edge (R34), else as STUCK if the longest mark has (R33; the order of the two is log 5). In IN_FRAME the
edge ends the interval (R27), and a mark begun at it that is already at its mark point closes the frame as
STUCK (R33); the lane's work may finish with the frame (R43). In every other sub-state the edge only ends a
waiting decision (R20). A meter lane's edge reaches the unit it holds (R75 to R77). -/
def Obligations.EdgeReachesEngine : Prop :=
  ∀ (s : State) (n : LaneId) (c : Change),
    let l := s.lane n
    let now := s.time.count
    let k := { l with fe := { l.fe with filtered := c.level, change := none, lastEdge := c.stamp } }
    let k0 := { k with cap := { k.cap with waiting := false } }
    let active := decide (c.level ≠ l.regs.idle)
    let begins := l.cap.cstate = .listen ∧ l.life = .running ∧ active = true
    let stuck (f : Frame) := f.inMark = true ∧ l.regs.maxmark.toNat
      ≤ tickDiff l.regs.div (now >>> l.regs.div.toNat) f.intervalStart
    let long (f : Frame) := l.regs.tlimit ≠ 0 ∧ l.regs.tlimit.toNat * 1024 ≤ (now - f.start).toNat
    l.fe.change = some c → s.ctl.enable = true →
    max 1 l.regs.minw.toNat ≤ tickDiff l.regs.div (now >>> l.regs.div.toNat) c.stamp.tick →
    ∃ t, exec (.edgeAccepted n) s = .next t
      ∧ (l.runs .capture → begins →
          let o := k0.beginFrame s.table c.stamp
          lanePosts n (eventsOf n o.posts) s t
          ∧ ∀ f, o.lane.cap.frame = some f → t.lane n
            = (if long f then o.lane.closeFrame s.table f .long
               else if stuck f then o.lane.closeStuck s.table f
               else o.lane))
      ∧ (∀ f, l.cap.frame = some f → l.runs .capture → l.cap.cstate = .inFrame →
          let e := k0.endInterval s.table active c.stamp f
          (e.cap.frame = none → captureLeaves n e s t)
          ∧ ∀ g, e.cap.frame = some g →
            captureLeaves n (if stuck g then e.closeStuck s.table g else e) s t)
      ∧ (l.runs .capture → ¬ begins → l.cap.cstate ≠ .inFrame → laneOnly n s t ∧ t.lane n = k0)
      ∧ (∀ u, s.meters.heldBy n = some u → l.runs .meter →
          let o := k.meterEdge (s.meters.get u) u now active c.stamp
          meterLeaves n u o.lane o.unit o.posts s t)
      ∧ (¬ l.runs .capture → ¬ l.runs .meter → laneOnly n s t ∧ t.lane n = k)

/-- A decision that waits for a pending change is taken at its settlement (R15). If the change is absorbed,
the idle wait ends in LISTEN (R20), a waiting mark closes as STUCK and a waiting space as GAP (R32, R33), with
the glitch counted in the frame (R29). If it is accepted, the wait point is not taken: the idle wait goes
on in its sub-state (R20), and the frame goes on with the interval ended at the accepted edge, here for a
frame not kept that no other limit closes. -/
def Obligations.WaitingDecisionSettles : Prop :=
  ∀ (s : State) (n : LaneId) (c : Change),
    let l := s.lane n
    l.fe.change = some c → l.runs .capture → l.cap.waiting = true →
    (let level := l.fe.sampled.flip
      let k := { l with line := level, fe := { l.fe with sampled := level, change := none }
                        cap := { l.cap with waiting := false } }
      ∃ t, exec (.transition n) s = .next t
        ∧ (l.cap.cstate = .arming ∨ l.cap.cstate = .holdoff → laneOnly n s t
            ∧ t.lane n = { k with cap := { k.cap with cstate := .listen } })
        ∧ (∀ f, l.cap.frame = some f → l.cap.cstate = .inFrame →
            let g := { f with glitches := if f.glitches + 1 ≤ 255 then f.glitches + 1 else 255 }
            let k' := { k with cap := { k.cap with frame := some g } }
            captureLeaves n (if f.inMark = true then k'.closeStuck s.table g
                             else k'.closeFrame s.table g .gap) s t))
    ∧ (let now := s.time.count
      let active := decide (c.level ≠ l.regs.idle)
      let fe' := { l.fe with filtered := c.level, change := none, lastEdge := c.stamp }
      s.ctl.enable = true →
      max 1 l.regs.minw.toNat ≤ tickDiff l.regs.div (now >>> l.regs.div.toNat) c.stamp.tick →
      ∃ t, exec (.edgeAccepted n) s = .next t
        ∧ (l.cap.cstate = .arming ∨ l.cap.cstate = .holdoff → laneOnly n s t
            ∧ t.lane n = { l with fe := fe', cap := { l.cap with waiting := false } })
        ∧ (∀ f, l.cap.frame = some f → l.cap.cstate = .inFrame → f.disp ≠ .kept →
            f.total + 1 ≠ l.regs.maxiv.toNat →
            (active = true → tickDiff l.regs.div (now >>> l.regs.div.toNat) c.stamp.tick
              < l.regs.maxmark.toNat) →
            laneOnly n s t ∧ t.lane n = { l with
              fe := fe'
              cap := { l.cap with
                waiting := false
                frame := some { f with
                  intervalStart := c.stamp.tick, inMark := active, total := f.total + 1 } } }))

/-- A taken LCFG write stores the fields within their bits and resynchronises the front end (R7, R125):
both levels become the pin's, the pending change is absent, and the last accepted edge takes the
present count under the new DIV. On a lane that is not STOPPED it is ignored. -/
def Obligations.LcfgWriteResynchronises : Prop :=
  ∀ (s : State) (n : LaneId) (w : Word), s.ctl.resetPending = false →
    let l := s.lane n
    (l.life = .stopped → ∃ t, exec (.lcfgWrite n w) s = .next t
      ∧ t.readLaneReg n 0x00 = w &&& 0xFF7F
      ∧ (t.lane n).regs.div = w.extractLsb' 4 3 ∧ (t.lane n).regs.minw = w.extractLsb' 8 8
      ∧ (t.lane n).fe = ⟨l.line, l.line, none,
          ⟨s.time.count, s.time.count >>> (w.extractLsb' 4 3).toNat⟩⟩
      ∧ t = s.setLane n { l with regs := (t.lane n).regs, fe := (t.lane n).fe }
      ∧ ∀ q ∈ plainLaneRegs, t.readLaneReg n q = s.readLaneReg n q)
    ∧ (l.life ≠ .stopped →
        exec (.lcfgWrite n w) s = .next (s.setLane n { l with writeIgnored := true }))

/-- Every step keeps the glitch filter right on every sampling lane: a pending change is present exactly
while the sampled level differs from the filtered level, and its level is the sampled one (spec/01, the
glitch filter; R9, R10, R11). -/
def Obligations.PendingChangeMeansLevelsDiffer : Prop :=
  keptByStep fun s => everyLane filterOk s

/-! ## Frame capture -/

/-- WAIT_POINT_REACHED (R20): in ARMING or HOLDOFF with the line idle for LGAP lane ticks, the assembler
enters LISTEN if no change is pending, and otherwise waits for its settlement; it does nothing before
the wait point, while it waits already, or in any other sub-state (log 1).
The three closes that a limit brings (R31 to R34), on the open frame of a RUNNING or STOPPING capture
lane: the gap closes it as GAP, the longest mark as STUCK with the mark counted, and the time limit as
LONG; on a STOPPING lane the work may finish with it (R43, R120). With a change pending the gap and the mark
wait for its settlement; the time limit does not. A report that is not due changes nothing (log 1). -/
def Obligations.WaitPointAndLimitCloses : Prop :=
  (∀ (s : State) (n : LaneId),
    let l := s.lane n
    let reached := l.filteredIdle ∧ l.regs.lgap.toNat
      ≤ tickDiff l.regs.div (s.time.count >>> l.regs.div.toNat) l.fe.lastEdge.tick
    (l.runs .capture → l.cap.cstate = .arming ∨ l.cap.cstate = .holdoff → l.cap.waiting = false →
      reached → exec (.waitPointReached n) s
        = .next (s.setLane n { l with cap := { l.cap with
            cstate := if l.fe.change = none then .listen else l.cap.cstate
            waiting := l.fe.change.isSome } }))
    ∧ (¬ reached ∨ l.cap.waiting = true ∨ ¬ l.runs .capture
        ∨ (l.cap.cstate ≠ .arming ∧ l.cap.cstate ≠ .holdoff) →
        exec (.waitPointReached n) s = .next s))
  ∧ (∀ (s : State) (n : LaneId) (f : Frame),
      let l := s.lane n
      let passed := tickDiff l.regs.div (s.time.count >>> l.regs.div.toNat) f.intervalStart
      let waits (t : State) := laneOnly n s t
        ∧ t.lane n = { l with cap := { l.cap with waiting := true } }
      let gap := l.cap.waiting = false ∧ f.inMark = false ∧ l.regs.lgap.toNat ≤ passed
      let mark := l.cap.waiting = false ∧ f.inMark = true ∧ l.regs.maxmark.toNat ≤ passed
      let long := l.regs.tlimit ≠ 0 ∧ l.regs.tlimit.toNat * 1024 ≤ (s.time.count - f.start).toNat
      l.cap.frame = some f → l.runs .capture → l.cap.cstate = .inFrame →
      (gap → ∃ t, exec (.gapPointReached n) s = .next t
          ∧ (l.fe.change = none → captureLeaves n (l.closeFrame s.table f .gap) s t)
          ∧ (l.fe.change ≠ none → waits t))
      ∧ (mark → ∃ t, exec (.markPointReached n) s = .next t
          ∧ (l.fe.change = none → captureLeaves n (l.closeStuck s.table f) s t)
          ∧ (l.fe.change ≠ none → waits t))
      ∧ (long → ∃ t, exec (.tlimitExpiry n) s = .next t
          ∧ captureLeaves n (l.closeFrame s.table f .long) s t)
      ∧ (¬ gap → exec (.gapPointReached n) s = .next s)
      ∧ (¬ mark → exec (.markPointReached n) s = .next s)
      ∧ (¬ long → exec (.tlimitExpiry n) s = .next s))

/-- What a close fixes (R31, R30): the frame is gone and the assembler in the sub-state of its reason.
The record of a kept frame, the newest of the list, takes the counts, the reason and, at a GAP close
alone, the decode result of the lowest-numbered matcher that succeeds (R61); its header shows the
reason, TRUNCATED where fewer intervals are stored than counted, and DECODED (R184). An end marker goes
to the back of the FIFO; at its head the drain is complete at once (R39). The matchers are OFF. A frame
with no record leaves all of these alone. A STUCK close first counts the mark, and stores MAXMARK where
the record has capacity and two FIFO entries are free (R33). -/
def Obligations.CloseFixesRecord : Prop :=
  (∀ (l : Lane) (table : Eight Profile) (f : Frame) (why : Close),
    let k := l.closeFrame table f why
    let closed (r : Record) := { r with
      close := some why, total := f.total, stored := f.stored, glitches := f.glitches
      decoded := if why = .gap then gapResult table l.matchers else none }
    k.cap.frame = none
    ∧ k.cap.cstate = (match why with | .gap => CState.listen | .aborted => .inactive | _ => .holdoff)
    ∧ k = { l with cap := k.cap, fifo := k.fifo, matchers := k.matchers }
    ∧ (f.disp ≠ .kept →
        k.cap.records = l.cap.records ∧ k.fifo = l.fifo ∧ k.matchers = l.matchers)
    ∧ (f.disp = .kept → ∀ i, (k.matchers.get i).state = .off)
    ∧ (∀ older r, l.cap.records = older ++ [r] → f.disp = .kept →
        (∀ v rest, l.fifo = .interval v :: rest →
          k.fifo = l.fifo ++ [.endMarker] ∧ k.cap.records = older ++ [closed r])
        ∧ (l.fifo = [] → (∀ q ∈ older, q.step ≠ .drain) → r.step = .drain →
          k.fifo = [] ∧ k.cap.records = older ++ [{ closed r with
            step := if (closed r).decoded.isSome = true then .decode else .header }])))
  ∧ (∀ (r : Record) (why : Close), r.close = some why →
      (r.headerWord 0).extractLsb' 4 4 = closeNumber why
      ∧ (r.headerWord 0).getLsbD 8 = decide (r.stored < r.total)
      ∧ (r.headerWord 0).getLsbD 9 = r.decoded.isSome)
  ∧ (∀ (table : Eight Profile) (ms : Eight Matcher),
      let result (i : ProfileIx) := (ms.get i).outcome (table.get i).fields i
      (gapResult table ms = none ↔ ∀ i, result i = none)
      ∧ ∀ i, (∀ j, j < i → result j = none) → result i ≠ none → gapResult table ms = result i)
  ∧ ∀ (l : Lane) (table : Eight Profile) (f : Frame),
      let f1 := { f with total := f.total + 1 }
      (f.disp ≠ .kept → l.closeStuck table f = l.closeFrame table f1 .stuck)
      ∧ ∀ r, l.cap.records.getLast? = some r → f.disp = .kept →
        (f.stored < r.capacity → l.fifo.length + 2 ≤ 32 → l.closeStuck table f
          = { l with fifo := l.fifo ++ [FifoEntry.interval l.regs.maxmark] }.closeFrame table
              { f1 with stored := f.stored + 1 } .stuck)
        ∧ (r.capacity ≤ f.stored ∨ 32 < l.fifo.length + 2 →
            l.closeStuck table f = l.closeFrame table f1 .stuck)

/-- A frame's start (R21 to R25): it takes the next sequence number and stands as a mark begun at the
edge, with nothing counted, and the first of SKIPPED, NO_SLOT, NO_BUFFER and kept that applies decides
it. A kept frame binds the held spare, whose buffer is even and long enough, its record carries the
frames lost before it, and it starts the matchers that PMASK names (R53): of a VALID entry in its first
tracking state, of an EMPTY one DEAD, and every other OFF; beside their states and a live one's bit
count and value of 0 the matchers' fields are the model's choice (log 16). The next spare is fetched
where R136 allows. A spare that fails goes to the return slot as BAD_BUFFER. A lane that finds no spare
and has none posted posts RING_EMPTY once (R143). -/
def Obligations.FrameStartDisposition : Prop :=
  ∀ (l : Lane) (table : Eight Profile) (e : EdgeStamp),
    let o := l.beginFrame table e
    let k := o.lane
    let minimum := if l.regs.pmask = 0 then 9 else 14
    let full := l.cap.records.length ≥ 2 ∨ l.fifo.length ≥ 32
    let begun (d : Disposition) : Assembler := { l.cap with
      cstate := .inFrame, waiting := false
      frame := some ⟨e.base, e.tick, true, 0, 0, 0, l.seq, d⟩ }
    let lost (why : DropWhy) (skip : Nat) (ring : Ring) := k = { l with
      seq := l.seq + 1, dropped := l.dropped + 1, dropWhy := why, skipCount := skip, ring := ring
      cap := begun (if why = .skipped then .skipped else .dropped) }
    let dry := l.ring.posted = l.ring.consumed ∧ l.ring.ringEmpty = false
    let latched := l.ring.ringEmpty || decide (l.ring.posted = l.ring.consumed)
    (0 < l.skipCount → lost .skipped (l.skipCount - 1) l.ring ∧ o.posts = [])
    ∧ (l.skipCount = 0 → full → lost .noSlot 0 l.ring ∧ o.posts = [])
    ∧ (l.skipCount = 0 → ¬ full → (∀ d, l.ring.slot ≠ .held d) →
        lost .noBuffer 0 { l.ring with ringEmpty := latched }
        ∧ o.posts = if dry then [(.ringEmpty, l.ring.consumed)] else [])
    ∧ (∀ d, l.ring.slot = .held d → l.skipCount = 0 → ¬ full →
        (d.addr.getLsbD 0 = true ∨ d.length.toNat < minimum) →
        lost .noBuffer 0 { l.ring with
          ringEmpty := latched, slot := .empty, ret := some ⟨d, .badBuffer⟩ }
        ∧ o.posts = if dry then [(.ringEmpty, l.ring.consumed)] else [])
    ∧ (∀ d, l.ring.slot = .held d → l.skipCount = 0 → ¬ full →
        d.addr.getLsbD 0 = false → minimum ≤ d.length.toNat →
        o.posts = []
        ∧ (∀ i, k.matchers.get i
            = (if l.regs.pmask.getLsbD i.val = false then ⟨.off, 0, 0, 0⟩
               else if (table.get i).valid = false then ⟨.dead, 0, 0, 0⟩
               else if (table.get i).fields.hasLead = true then ⟨.expectLeadMark, 0, 0, 0⟩
               else ⟨.expectMark, 0, 0, 0⟩))
        ∧ ∃ r, k = { l with
            seq := l.seq + 1, dropped := 0, matchers := k.matchers
            cap := { begun .kept with records := l.cap.records ++ [r] }
            ring := { l.ring with
              slot := if l.life.fetches = true ∧ l.ring.ret = none
                          ∧ l.ring.posted ≠ l.ring.consumed then
                        .fetching (l.ring.consumed.toNat % l.ring.rsize.toNat) false []
                      else .empty } }
          ∧ r.desc = d ∧ r.seq = l.seq ∧ r.droppedBefore = l.dropped ∧ r.start = e.base
          ∧ r.close = none ∧ r.drained = 0 ∧ r.decoded = none ∧ r.step = .drain
          ∧ r.capacity = d.length.toNat - 8 - (if l.regs.pmask = 0 then 0 else 5)
          ∧ 1 ≤ r.capacity)

/-- An accepted edge in a frame (R27, R28) ends the interval in progress, whose value is the difference of the
stamps, kept modulo 2^16 where a late report makes it longer than a word (log 18). In a kept frame short
of MAXIV: below capacity with two FIFO entries free it is stored; at capacity it is counted and refused;
below capacity with fewer free it closes the frame as OVERRUN, counted but not stored. In a frame not kept
and short of MAXIV it is counted. The interval that brings the total to MAXIV closes the frame as FULL
(R27), kept or not. -/
def Obligations.IntervalStoredOrCloses : Prop :=
  (∀ (l : Lane) (table : Eight Profile) (active : Bool) (e : EdgeStamp) (f : Frame) (r : Record),
    f.disp = .kept → l.cap.records.getLast? = some r → f.total + 1 ≠ l.regs.maxiv.toNat →
    let v := BitVec.ofNat 16 (tickDiff l.regs.div e.tick f.intervalStart)
    let k := l.endInterval table active e f
    let f' := { f with intervalStart := e.tick, inMark := active, total := f.total + 1 }
    (f.stored < r.capacity → l.fifo.length + 2 ≤ 32 →
      k.cap.frame = some { f' with stored := f.stored + 1 } ∧ k.fifo = l.fifo ++ [.interval v]
      ∧ (∀ i, k.matchers.get i = (l.matchers.get i).step (table.get i).fields v)
      ∧ k.cap.records = l.cap.records)
    ∧ (r.capacity ≤ f.stored →
        k.cap.frame = some f' ∧ k.fifo = l.fifo ∧ k.cap.records = l.cap.records
        ∧ ∀ i, k.matchers.get i = (l.matchers.get i).step (table.get i).fields v)
    ∧ (f.stored < r.capacity → 32 < l.fifo.length + 2 →
        k.cap.frame = none ∧ k.cap.cstate = .holdoff
        ∧ k = l.closeFrame table f' .overrun))
  ∧ (∀ (l : Lane) (table : Eight Profile) (active : Bool) (e : EdgeStamp) (f : Frame),
      f.disp ≠ .kept → f.total + 1 ≠ l.regs.maxiv.toNat →
      l.endInterval table active e f = { l with cap := { l.cap with
        frame := some { f with
          intervalStart := e.tick, inMark := active, total := f.total + 1 } } })
  ∧ (∀ (l : Lane) (table : Eight Profile) (active : Bool) (e : EdgeStamp) (f : Frame),
      f.total + 1 = l.regs.maxiv.toNat →
      (l.endInterval table active e f).cap.frame = none
      ∧ (l.endInterval table active e f).cap.cstate = .holdoff
      ∧ (∀ r, l.cap.records.getLast? = some r → f.disp = .kept →
          ∃ q, (l.endInterval table active e f).cap.records.getLast? = some q
            ∧ q.total = l.regs.maxiv.toNat ∧ q.seq = r.seq
            ∧ q.close = (if f.stored < r.capacity ∧ 32 < l.fifo.length + 2 then some .overrun
                         else some .full)))

/-! ## Meter units -/

/-- A completed item is taken into the measurement (R78): the total saturates at 0xFFFFFFFF and says so, and
the minimum and maximum follow the item. An ARMED unit begins a measurement, with its start, its first
item and its timeout, at an edge that begins an item under MMODE, and ignores any other (R75). A COUNTING
unit between two items begins the next at such an edge (R77). An edge that ends the item in progress (R76,
R77, R80): short of MCOUNT the measurement goes on, under PERIOD with the next item begun at the edge; the
MCOUNTth item hands over the result as COMPLETE (R81). On a RUNNING CONTINUOUS lane a PERIOD measurement
is chained from the same edge and any other armed afresh; otherwise the unit enters M_RESULT while its
result is written, and is released at once, the lane STOPPED, if none was bound (R84, R85). That a
RING_EMPTY of the disposition stands before LANE_STOPPED is DEDUCED (log 12), and the values a released
unit holds are the model's choice (log 16). -/
def Obligations.ItemEndContinuesOrCompletes : Prop :=
  (∀ (u : MeterUnit) (item : Stamp),
    (u.addItem item).items = u.items + 1
    ∧ (u.addItem item).total.toNat = min (u.total.toNat + item.toNat) 0xFFFFFFFF
    ∧ ((u.addItem item).sat = true ↔ u.sat = true ∨ 0xFFFFFFFF < u.total.toNat + item.toNat)
    ∧ (u.addItem item).minItem.toNat = min u.minItem.toNat item.toNat
    ∧ (u.addItem item).maxItem.toNat = max u.maxItem.toNat item.toNat
    ∧ (u.addItem item).claim = u.claim ∧ (u.addItem item).startStamp = u.startStamp)
  ∧ (∀ (l : Lane) (u : MeterUnit) (unit : UnitId) (now : Stamp) (active : Bool) (e : EdgeStamp),
      let begins := ((l.regs.mmode = 0 ∨ l.regs.mmode = 1) ∧ active = true)
        ∨ (l.regs.mmode = 2 ∧ active = false)
      let ends := ((l.regs.mmode = 0 ∨ l.regs.mmode = 2) ∧ active = true)
        ∨ (l.regs.mmode = 1 ∧ active = false)
      let timer := if l.regs.mtimeout = 0 then none else some now
      let o := l.meterEdge u unit now active e
      let taken := u.addItem (e.base - u.itemStart)
      let d := l.disposeResult taken unit .complete
      (u.state = .armed → o.lane = l ∧ o.posts = [] ∧ o.unit = if begins then { u with
          state := .counting, startStamp := e.base, itemStart := e.base, inItem := true
          timeout := timer } else u)
      ∧ (u.state = .counting → u.inItem = false → o.lane = l ∧ o.posts = []
          ∧ o.unit = if begins then { u with
              inItem := true, itemStart := e.base, timeout := timer } else u)
      ∧ (u.state = .counting → u.inItem = true → ¬ ends → o = ⟨l, u, []⟩)
      ∧ (u.state = .counting → u.inItem = true → ends →
        (u.items + 1 ≠ l.regs.mcount.toNat →
          o.lane = l ∧ o.posts = [] ∧ o.unit = { taken with
            itemStart := if l.regs.mmode = 0 then e.base else u.itemStart
            inItem := decide (l.regs.mmode = 0)
            timeout := timer })
        ∧ (u.items + 1 = l.regs.mcount.toNat →
          (l.life = .running → l.regs.cont = true →
            o.lane = d.lane ∧ o.posts = d.posts
            ∧ o.unit.claim = u.claim ∧ o.unit.items = 0 ∧ o.unit.total = 0 ∧ o.unit.sat = false
            ∧ o.unit.minItem = 0xFFFFFFFF ∧ o.unit.maxItem = 0 ∧ o.unit.timeout = timer
            ∧ (l.regs.mmode = 0 → o.unit.state = .counting ∧ o.unit.startStamp = e.base
                ∧ o.unit.itemStart = e.base ∧ o.unit.inItem = true)
            ∧ (l.regs.mmode ≠ 0 → o.unit.state = .armed ∧ o.unit.armTime = now))
          ∧ (l.regs.cont = false ∨ l.life ≠ .running → d.lane.result.isSome = true →
            o.lane = d.lane ∧ o.posts = d.posts
            ∧ o.unit = { taken with state := .result, timeout := none })
          ∧ (l.life = .running → l.regs.cont = false → d.lane.result = none →
            o.lane = { d.lane with life := .stopped, ring := d.lane.ring.withdraw }
            ∧ o.unit = .free ∧ o.posts = d.posts ++ [(.laneStopped, 3)])
          ∧ (∀ x, l.life = .stopping x → d.lane.result = none →
            o.lane = { d.lane with life := .stopped, ring := d.lane.ring.withdraw }
            ∧ o.unit = .free ∧ o.posts = d.posts ++ [(.laneStopped, endingCode x)]))))

/-- A result's disposition (R81): the next sequence number, then the first of SKIPPED, NO_SLOT, NO_BUFFER
and bound that applies. A bound one takes the held spare, whose buffer is even and long enough (R138,
R139), and the count of what was lost before it, and holds what R80 and R83 name; the next spare is fetched
where R136 allows. A spare that fails goes to the return slot as BAD_BUFFER. A lane that finds no spare and
has none posted posts RING_EMPTY once (R143). Nothing else of the lane changes. -/
def Obligations.ResultDisposition : Prop :=
  ∀ (l : Lane) (u : MeterUnit) (unit : UnitId) (why : Close),
    let o := l.disposeResult u unit why
    let k := o.lane
    let minimum := if l.regs.spread then 13 else 9
    let lost (reason : DropWhy) (skip : Nat) (ring : Ring) := k = { l with
      seq := l.seq + 1, dropped := l.dropped + 1, dropWhy := reason, skipCount := skip, ring := ring }
    let dry := l.ring.posted = l.ring.consumed ∧ l.ring.ringEmpty = false
    let latched := l.ring.ringEmpty || decide (l.ring.posted = l.ring.consumed)
    (0 < l.skipCount → lost .skipped (l.skipCount - 1) l.ring ∧ o.posts = [])
    ∧ (l.skipCount = 0 → l.result.isSome = true → lost .noSlot 0 l.ring ∧ o.posts = [])
    ∧ (l.skipCount = 0 → l.result = none → (∀ d, l.ring.slot ≠ .held d) →
        lost .noBuffer 0 { l.ring with ringEmpty := latched }
        ∧ o.posts = if dry then [(.ringEmpty, l.ring.consumed)] else [])
    ∧ (∀ d, l.ring.slot = .held d → l.skipCount = 0 → l.result = none →
        (d.addr.getLsbD 0 = true ∨ d.length.toNat < minimum) →
        lost .noBuffer 0 { l.ring with
          ringEmpty := latched, slot := .empty, ret := some ⟨d, .badBuffer⟩ }
        ∧ o.posts = if dry then [(.ringEmpty, l.ring.consumed)] else [])
    ∧ (∀ d, l.ring.slot = .held d → l.skipCount = 0 → l.result = none →
        d.addr.getLsbD 0 = false → minimum ≤ d.length.toNat →
        o.posts = []
        ∧ ∃ r, k = { l with
            seq := l.seq + 1, dropped := 0, result := some r
            ring := { l.ring with
              slot := if l.life.fetches = true then refilled l.ring else .empty } }
          ∧ r.desc = d ∧ r.close = why ∧ r.seq = l.seq ∧ r.droppedBefore = l.dropped
          ∧ r.unit = unit ∧ r.mode = l.regs.mmode ∧ r.items = u.items ∧ r.total = u.total
          ∧ r.sat = u.sat ∧ r.minItem = u.minItem ∧ r.maxItem = u.maxItem
          ∧ r.spread = (l.regs.spread && decide (1 ≤ u.items))
          ∧ r.start = (if u.state = .armed then u.armTime else u.startStamp)
          ∧ r.step = .header1)

/-- MTIMEOUT_EXPIRY (R79, R80): on a RUNNING or STOPPING lane a measurement armed or counting whose timeout has
run out ends as TIMEOUT, and its result is disposed of as R81 says. A RUNNING CONTINUOUS lane's unit is
armed afresh; otherwise the unit enters M_RESULT while its result is written, or, with none bound, is
released and the lane STOPPED (R84, R85). A report that comes before the timeout has run out, or with
none running, changes nothing (log 1). That a RING_EMPTY of the disposition stands before LANE_STOPPED is
DEDUCED (log 12), and the values a released unit holds, and those of an armed one that R75 does not set, are
the model's choice (log 16). -/
def Obligations.MeterTimeoutEndsMeasurement : Prop :=
  ∀ (s : State) (n : LaneId) (u : UnitId),
    let l := s.lane n
    let m := s.meters.get u
    let d := l.disposeResult m u .timeout
    (∀ start, m.timeout = some start → l.runs .meter → s.meters.heldBy n = some u →
      m.state = .armed ∨ m.state = .counting → l.regs.mtimeout ≠ 0 →
      (l.regs.mtimeout.toNat * 1024 ≤ (s.time.count - start).toNat →
        ∃ t, exec (.mtimeoutExpiry n) s = .next t
          ∧ (l.life = .running → l.regs.cont = true → meterLeaves n u d.lane
              { MeterUnit.free with claim := m.claim, state := .armed, armTime := s.time.count
                                    timeout := some s.time.count } d.posts s t)
          ∧ (l.life = .running → l.regs.cont = false → measurementOver n u m d 3 s t)
          ∧ (∀ e, l.life = .stopping e → measurementOver n u m d (endingCode e) s t))
      ∧ ((s.time.count - start).toNat < l.regs.mtimeout.toNat * 1024 →
          exec (.mtimeoutExpiry n) s = .next s))
    ∧ (s.meters.heldBy n = some u → m.timeout = none → exec (.mtimeoutExpiry n) s = .next s)
    ∧ (s.meters.heldBy n = none → exec (.mtimeoutExpiry n) s = .next s)
    ∧ (¬ l.runs .meter → exec (.mtimeoutExpiry n) s = .next s)

/-! ## Replay -/

/-- What the part presents at a lane pin (R100): nothing unless the lane is in REPLAY and RUNNING or
STOPPING; there the active level exactly during a mark outside a carrier's idle phase, and otherwise,
also in R_PLAY before the first interval has begun, the idle level or a released pin as DRIVE says.
CARRIER_PHASE (R101): in a mark of a CARRIER record the level goes to idle when the phase reaches CHIGH,
and back to active, with the phase at 0, when it reaches CPER; nothing else changes, and a report that
is not due changes nothing (log 1). -/
def Obligations.PinAndCarrier : Prop :=
  (∀ l : Lane,
    (¬ l.runs .replay → l.pin = .released)
    ∧ (l.runs .replay →
        (l.rep.rstate ≠ .rPlay ∨ ∀ c, l.rep.current = some c → c.playing = none) →
        l.pin = if l.regs.driveStyle = .drive then .driven l.regs.idle else .released)
    ∧ (∀ c p, l.runs .replay → l.rep.rstate = .rPlay → l.rep.current = some c →
        c.playing = some p →
        l.pin = (if p.isMark = true ∧ (c.carrier = true → c.carrierActive = true) then
                   .driven l.regs.idle.flip
                 else if l.regs.driveStyle = .drive then .driven l.regs.idle
                 else .released)))
  ∧ (∀ (s : State) (n : LaneId) (c : ReplayRecord) (p : Playing),
    let l := s.lane n
    l.rep.rstate = .rPlay → l.rep.current = some c → c.playing = some p →
    (c.carrier = true → p.isMark = true → c.carrierPhase = l.regs.cper.toNat →
      exec (.carrierPhase n) s = .next (s.setLane n { l with rep := { l.rep with
        current := some { c with carrierPhase := 0, carrierActive := true } } }))
    ∧ (c.carrier = true → p.isMark = true → c.carrierActive = true →
        l.regs.chigh.toNat ≤ c.carrierPhase → c.carrierPhase < l.regs.cper.toNat →
      exec (.carrierPhase n) s = .next (s.setLane n { l with rep := { l.rep with
        current := some { c with carrierActive := false } } }))
    ∧ (c.carrier = false ∨ p.isMark = false
        ∨ (c.carrierPhase < l.regs.cper.toNat
          ∧ (c.carrierActive = false ∨ c.carrierPhase < l.regs.chigh.toNat)) →
      exec (.carrierPhase n) s = .next s))
  ∧ ∀ (s : State) (n : LaneId), (s.lane n).rep.rstate ≠ .rPlay ∨ (s.lane n).rep.current = none →
      exec (.carrierPhase n) s = .next s

/-- The header check at the acknowledge of its fourth word (R95, R185): the record ends as MALFORMED
exactly when one of the listed faults is found (R107); otherwise its fields are read from the header,
and an INTERVALS record enters R_FILL, a REPEAT code R_PLAY with no interval begun, and a DATA code
stays in R_LOAD for its value. Nothing else of the lane changes. That the fields of word 2 are read for
both kinds, and what the fields no rule sets hold, is the model's choice (log 25). -/
def Obligations.ReplayHeaderChecked : Prop :=
  ∀ (l : Lane) (table : Eight Profile) (c : ReplayRecord) (w0 w1 w2 w3 : Word),
    l.rep.current = some c → c.loaded = [w0, w1, w2, w3] → l.rep.rstate = .rLoad →
    let kind := w0.extractLsb' 0 4
    let n := (w2.extractLsb' 0 10).toNat
    let ix : ProfileIx := (w2.extractLsb' 0 3).toFin
    let p := (table.get ix).fields
    let bits := (w2.extractLsb' 8 7).toNat
    let repeats := w2.getLsbD 4
    let malformed := (kind ≠ 1 ∧ kind ≠ 2) ∨ w1 = 0
      ∨ (kind = 1 ∧ (n % 2 = 0 ∨ c.desc.length.toNat < 4 + n))
      ∨ (kind = 2 ∧ ((table.get ix).valid = false
          ∨ (repeats = true ∧ p.hasRepeat = false)
          ∨ (repeats = false ∧ (bits < p.bitMin.toNat ∨ p.bitMax.toNat < bits
              ∨ c.desc.length.toNat < 4 + (bits + 15) / 16))))
    let k := l.checkHeader table c
    (malformed → k = { l with
        fifo := [], rep := ⟨.rWait, none, some ⟨c.desc, c.kind, .malformed, c.passes⟩⟩ })
    ∧ (¬ malformed →
        let plays := kind = 2 ∧ repeats = true
        k = { l with rep := {
          rstate := if kind = 1 then .rFill else if repeats then .rPlay else .rLoad
          current := some { c with
            kind := if kind = 1 then some .intervals else some .code
            carrier := w0.getLsbD 4
            gap := w1
            count := w2.extractLsb' 0 10
            profile := ix
            isRepeat := repeats
            bitCount := w2.extractLsb' 8 7
            repeatCount := w3.extractLsb' 0 8
            loaded := []
            played := if plays then 0 else c.played
            playing := if plays then none else c.playing
            tickSeen := if plays then false else c.tickSeen }
          finished := l.rep.finished } })

/-- FIRST_INTERVAL_BEGIN and INTERVAL_END on an INTERVALS record (R99, R104, R105, R102): the interval
at the head of the FIFO begins and lasts its value in lane ticks; a zero one ends the record as
MALFORMED, an empty FIFO as UNDERRUN; after the last interval the trailing gap begins, and intervals
still to come in a further pass are fetched anew (R98). Nothing else of the lane changes, and either
report changes nothing before it is due (log 1). The carrier phase and level of an interval that is no
mark of a CARRIER record, and what fields no rule sets hold, are the model's choice (log 25). -/
def Obligations.IntervalsPlayedFromFifo : Prop :=
  ∀ (s : State) (n : LaneId) (c : ReplayRecord),
    let l := s.lane n
    l.rep.rstate = .rPlay → l.rep.current = some c → c.kind = some .intervals →
    c.endPending = false →
    let first := c.playing = none ∧ c.tickSeen = true
    let ended := ∃ p, c.playing = some p ∧ p.left = 0
    (∀ i, (i = .firstIntervalBegin n ∧ first)
        ∨ (i = .intervalEnd n ∧ ended ∧ c.played < c.count.toNat) →
      (∀ v rest, l.fifo = .interval v :: rest → v ≠ 0 →
        ∃ t, exec i s = .next t ∧ laneOnly n s t ∧ t.lane n = { l with
          fifo := rest
          rep := { l.rep with current := some { c with
            playing := some ⟨decide (c.played % 2 = 0), v, v.toNat * 2 ^ l.regs.div.toNat⟩
            played := c.played + 1, carrierPhase := 0, carrierActive := true } } })
      ∧ (∀ status, (status = .malformed ∧ l.fifo.head? = some (.interval 0))
          ∨ (status = .underrun ∧ l.fifo = []) →
        ∃ t, exec i s = .next t ∧ laneOnly n s t ∧ t.lane n = { l with
          fifo := [], rep := ⟨.rWait, none, some ⟨c.desc, c.kind, status, c.passes⟩⟩ }))
    ∧ (ended → c.count.toNat ≤ c.played →
      ∃ t, exec (.intervalEnd n) s = .next t ∧ laneOnly n s t ∧ t.lane n = { l with
        rep := { l.rep with
          rstate := .rTrail
          current := some { c with
            playing := none
            gapLeft := c.gap.toNat * 2 ^ l.regs.div.toNat
            fetched := if c.passes + 1 < c.repeatCount.toNat + 1 then 0 else c.fetched } } })
    ∧ (¬ first → exec (.firstIntervalBegin n) s = .next s)
    ∧ (¬ ended → exec (.intervalEnd n) s = .next s)

/-- TRAILING_GAP_END (R102, R98): passes completed increments; the record ends as OK after its last
pass, as STOPPED_EARLY if STOP was taken before. Otherwise a CODE record begins its next pass with its
first interval (R103), and so does an INTERVALS record with the smaller of n and 16 intervals in the
FIFO, from its head, where a zero ends the record as MALFORMED (R105); any other enters R_FILL. Nothing
else of the lane changes, and a report before the gap has run down changes nothing (log 1). The carrier
phase and level of a mark of a record with CARRIER clear, and what fields no rule sets hold, are the
model's choice (log 25). -/
def Obligations.TrailingGapEndsPass : Prop :=
  ∀ (s : State) (n : LaneId) (c : ReplayRecord),
    let l := s.lane n
    l.rep.rstate = .rTrail → l.rep.current = some c →
    let last := c.passes + 1 = c.repeatCount.toNat + 1
    let p := (s.table.get c.profile).fields
    let code := if c.isRepeat = true then p.repeatIntervals
                else p.dataIntervals c.bitCount.toNat c.value
    let begun (v : Word) (fifo : List FifoEntry) (t : State) :=
      laneOnly n s t ∧ t.lane n = { l with
        fifo := fifo
        rep := ⟨.rPlay, some { c with
          passes := c.passes + 1, played := 1, tickSeen := false
          playing := some ⟨true, v, v.toNat * 2 ^ l.regs.div.toNat⟩
          carrierPhase := 0, carrierActive := true }, l.rep.finished⟩ }
    let ended (status : DescStatus) (t : State) := laneOnly n s t ∧ t.lane n = { l with
      fifo := [], rep := ⟨.rWait, none, some ⟨c.desc, c.kind, status, c.passes + 1⟩⟩ }
    let goesOn := c.gapLeft = 0 ∧ ¬ last ∧ c.stopRequested = false
    (c.gapLeft = 0 → last → ∃ t, exec (.trailingGapEnd n) s = .next t ∧ ended .ok t)
    ∧ (c.gapLeft = 0 → ¬ last → c.stopRequested = true →
        ∃ t, exec (.trailingGapEnd n) s = .next t ∧ ended .stoppedEarly t)
    ∧ (∀ v rest, code = v :: rest → goesOn → c.kind = some .code →
        ∃ t, exec (.trailingGapEnd n) s = .next t ∧ begun v l.fifo t)
    ∧ (goesOn → c.kind = some .intervals → l.fifo.length < min c.count.toNat 16 →
        ∃ t, exec (.trailingGapEnd n) s = .next t ∧ laneOnly n s t ∧ t.lane n = { l with
          rep := ⟨.rFill, some { c with
              passes := c.passes + 1, played := 0, playing := none, tickSeen := false },
              l.rep.finished⟩ })
    ∧ (∀ v rest, l.fifo = .interval v :: rest → goesOn → c.kind = some .intervals →
        min c.count.toNat 16 ≤ l.fifo.length →
        (v ≠ 0 → ∃ t, exec (.trailingGapEnd n) s = .next t ∧ begun v rest t)
        ∧ (v = 0 → ∃ t, exec (.trailingGapEnd n) s = .next t ∧ ended .malformed t))
    ∧ (c.gapLeft ≠ 0 → exec (.trailingGapEnd n) s = .next s)

/-- FIRST_INTERVAL_BEGIN and INTERVAL_END on a record in R_PLAY whose intervals come from the encoder
(R103, R99): the next of the pass begins, a mark at every even place and a space at every odd one, for
its value in lane ticks, and the FIFO is not touched; after the last the trailing gap begins (R102).
With end pending, after a COMMIT or CLEAR of its profile, the record ends as PROFILE_CHANGED at the end
of the interval in progress (R106), or in place of its first interval (log 6). Either report changes
nothing before it is due (log 1). The carrier phase and level of an interval that is no mark of a
CARRIER record, and what fields no rule sets hold, are the model's choice (log 25). -/
def Obligations.CodePlayOutAndProfileChange : Prop :=
  ∀ (s : State) (n : LaneId) (c : ReplayRecord),
    let l := s.lane n
    l.rep.rstate = .rPlay → l.rep.current = some c →
    let first := c.playing = none ∧ c.tickSeen = true
    let ended := ∃ p, c.playing = some p ∧ p.left = 0
    let p := (s.table.get c.profile).fields
    let code := if c.isRepeat = true then p.repeatIntervals
                else p.dataIntervals c.bitCount.toNat c.value
    (∀ i, (i = .firstIntervalBegin n ∧ first) ∨ (i = .intervalEnd n ∧ ended) →
      (∀ v, code[c.played]? = some v → c.kind = some .code → c.endPending = false →
        ∃ t, exec i s = .next t ∧ laneOnly n s t ∧ t.lane n = { l with rep := { l.rep with
          current := some { c with
            playing := some ⟨decide (c.played % 2 = 0), v, v.toNat * 2 ^ l.regs.div.toNat⟩
            played := c.played + 1, carrierPhase := 0, carrierActive := true } } })
      ∧ (c.endPending = true →
        ∃ t, exec i s = .next t ∧ laneOnly n s t ∧ t.lane n = { l with
          fifo := []
          rep := ⟨.rWait, none, some ⟨c.desc, c.kind, .profileChanged, c.passes⟩⟩ }))
    ∧ (ended → code.length ≤ c.played → c.kind = some .code → c.endPending = false →
      ∃ t c', exec (.intervalEnd n) s = .next t ∧ laneOnly n s t
        ∧ t.lane n = { l with rep := { l.rep with rstate := .rTrail, current := some c' } }
        ∧ c' = { c with
            playing := none, gapLeft := c.gap.toNat * 2 ^ l.regs.div.toNat, fetched := c'.fetched })
    ∧ (¬ first → exec (.firstIntervalBegin n) s = .next s)
    ∧ (¬ ended → exec (.intervalEnd n) s = .next s)

/-! ## Lane commands -/

/-- The configuration that START accepts (R116, with R7, R17, R73, R88 and R130).
A START that is refused changes LRESULT alone, and the first check that fails decides it (R116). -/
def Obligations.StartConfigurationAndRefusals : Prop :=
  (∀ (l : Lane) (table : Eight Profile),
    l.configFit table = true ↔
      l.regs.minw ≠ 0 ∧ 2 ≤ l.ring.rsize.toNat ∧ l.ring.rsize.toNat ≤ 256
      ∧ ((l.regs.lmode = .capture ∧ 2 ≤ l.regs.lgap.toNat ∧ l.regs.minw.toNat < l.regs.lgap.toNat
            ∧ l.regs.minw.toNat ≤ l.regs.maxmark.toNat ∧ l.regs.maxmark ≠ 0
            ∧ 1 ≤ l.regs.maxiv.toNat ∧ l.regs.maxiv.toNat ≤ 1023
            ∧ ∀ i : ProfileIx, l.regs.pmask.getLsbD i.val = true → (table.get i).valid = true)
        ∨ (l.regs.lmode = .meter ∧ l.regs.mmode ≠ 3 ∧ 1 ≤ l.regs.mcount.toNat
            ∧ l.regs.mcount.toNat ≤ 1023)
        ∨ (l.regs.lmode = .replay ∧ 2 ≤ l.regs.cper.toNat ∧ l.regs.cper.toNat ≤ 1023
            ∧ 1 ≤ l.regs.chigh.toNat ∧ l.regs.chigh.toNat < l.regs.cper.toNat)))
  ∧ (∀ (s : State) (n : LaneId) (arg : BitVec 12), s.ctl.resetPending = false →
      let l := s.lane n
      let answers (r : LResult) :=
        exec (.start n arg) s = .next (s.setLane n { l with lresult := r })
      (l.life ≠ .stopped → answers .busy)
      ∧ (l.life = .stopped → s.ctl.enable = false → answers .disabled)
      ∧ (l.life = .stopped → s.ctl.enable = true → l.configFit s.table = false → answers .badConfig)
      ∧ (l.life = .stopped → s.ctl.enable = true → l.configFit s.table = true →
          l.regs.lmode = .meter → (∀ u, (s.meters.get u).claim ≠ none) → answers .noMeter))

/-- A START that passes every check (R117, R19, R71, R75, R92, R93, R94, R136, R143): ACCEPTED, WRITE_IGNORED
cleared, the lane RUNNING and its engine begun from the front end as it stands, with everything else of
the lane kept. A capture lane arms, or listens at once on a line already at rest, unless a change is
pending, which the decision then waits for (R15, R20); a meter lane claims the lowest free unit and arms
it. A replay lane enters R_WAIT: it takes a held spare, or, with none held and the ring dry, posts
RING_EMPTY once. In every mode a fetch follows where R136 allows. -/
def Obligations.StartBeginsEngine : Prop :=
  ∀ (s : State) (n : LaneId) (arg : BitVec 12), s.ctl.resetPending = false →
    let l := s.lane n
    l.life = .stopped → s.ctl.enable = true → l.configFit s.table = true →
    (l.regs.lmode = .meter → ∃ u, (s.meters.get u).claim = none) →
    let begun := { l with life := .running, lresult := .accepted, writeIgnored := false }
    let ring := { l.ring with
      slot := if l.ring.slot = .empty then refilled l.ring else l.ring.slot }
    ∃ t, exec (.start n arg) s = .next t ∧ sharedKept s t ∧ othersKept n s t ∧ busKept s t
      ∧ (l.regs.lmode = .capture →
          let rested := l.filteredIdle ∧ l.regs.lgap.toNat
            ≤ tickDiff l.regs.div (s.time.count >>> l.regs.div.toNat) l.fe.lastEdge.tick
          t.queue = s.queue ∧ t.meters = s.meters
          ∧ t.lane n = { begun with
              cap := {
                cstate := if rested ∧ l.fe.change = none then .listen else .arming
                frame := none
                waiting := decide (rested ∧ l.fe.change ≠ none)
                records := [] }
              ring := ring })
      ∧ (l.regs.lmode = .meter → t.queue = s.queue ∧ t.lane n = { begun with ring := ring } ∧ ∃ u,
          (s.meters.get u).claim = none ∧ (∀ v, v < u → (s.meters.get v).claim ≠ none)
          ∧ (t.meters.get u).claim = some n ∧ (t.meters.get u).state = .armed
          ∧ (t.meters.get u).armTime = s.time.count ∧ (t.meters.get u).items = 0
          ∧ (t.meters.get u).total = 0 ∧ (t.meters.get u).sat = false
          ∧ (t.meters.get u).minItem = 0xFFFFFFFF ∧ (t.meters.get u).maxItem = 0
          ∧ (t.meters.get u).timeout = (if l.regs.mtimeout = 0 then none else some s.time.count)
          ∧ ∀ v, v ≠ u → t.meters.get v = s.meters.get v)
      ∧ (l.regs.lmode = .replay → t.meters = s.meters
          ∧ ((∀ d, l.ring.slot ≠ .held d) →
            let dry := l.ring.posted = l.ring.consumed ∧ l.ring.ringEmpty = false
            t.lane n = { begun with
              rep := ⟨.rWait, none, none⟩
              ring := { ring with ringEmpty := l.ring.ringEmpty || decide dry } }
            ∧ t.queue = if dry then
                s.queue.post s.time.count ⟨.ringEmpty, some n, l.ring.consumed⟩
              else s.queue)
          ∧ (∀ d, l.ring.slot = .held d →
              t.queue = s.queue
              ∧ replayTakes begun d { l.ring with slot := refilled l.ring } (t.lane n)))

/-- STOP (R118, R120): ACCEPTED on a STOPPED lane with LANE_STOPPED posted at once, and on a STOPPING one with
nothing changed; BUSY on a FLUSHING or FAULTED one. A RUNNING lane becomes STOPPING with ENDING STOP, or
passes through to STOPPED and posts LANE_STOPPED with value STOP. A capture lane does so exactly when no
frame is open and no record is left (R36, R43). A meter lane whose unit is ARMED ends its measurement with
no result: it is STOPPED at once if its result slot is empty, and otherwise waits in M_RESULT; one that is
COUNTING, or in M_RESULT, goes on (R85). A replay record being loaded or filled ends as STOPPED_EARLY, and
one being played ends with its pass (R109). Nothing else of the lane changes, but that an ungranted fetch
of a lane that became STOPPED is withdrawn (R136). The values a released unit holds are the model's choice
(log 16). -/
def Obligations.StopFinishesOrWaits : Prop :=
  ∀ (s : State) (n : LaneId) (arg : BitVec 12), s.ctl.resetPending = false →
    let l := s.lane n
    let accepted := { l with lresult := LResult.accepted, writeIgnored := false }
    let k := { accepted with life := .stopping .stop }
    let stopped : Event := ⟨.laneStopped, some n, 1⟩
    (l.life = .stopped → exec (.stop n arg) s = .next ((s.setLane n accepted).post stopped))
    ∧ (∀ e, l.life = .stopping e → exec (.stop n arg) s = .next (s.setLane n accepted))
    ∧ ((∃ a, l.life = .flushing a) ∨ (∃ c, l.life = .faulted c) →
        exec (.stop n arg) s = .next (s.setLane n { l with lresult := .busy }))
    ∧ (l.life = .running → ∃ t, exec (.stop n arg) s = .next t
        ∧ (t.lane n).lresult = .accepted ∧ (t.lane n).writeIgnored = false
        ∧ sharedKept s t ∧ othersKept n s t ∧ busKept s t
        ∧ (((t.lane n).life = .stopping .stop ∧ t.queue = s.queue)
          ∨ ((t.lane n).life = .stopped ∧ t.queue = s.queue.post s.time.count stopped))
        ∧ (l.regs.lmode ≠ .meter → t.meters = s.meters)
        ∧ (l.regs.lmode = .capture → captureLeaves n k s t)
        ∧ (∀ u, s.meters.heldBy n = some u → l.regs.lmode = .meter →
            let m := s.meters.get u
            (m.state = .counting ∨ m.state = .result → meterLeaves n u k m [] s t)
            ∧ (m.state = .armed → l.result.isSome = true →
              meterLeaves n u k { m with state := .result, timeout := none } [] s t)
            ∧ (m.state = .armed → l.result = none →
              meterLeaves n u { k with life := .stopped, ring := k.ring.withdraw } .free
                [(.laneStopped, 1)] s t))
        ∧ (l.regs.lmode = .replay →
            (∀ c, l.rep.current = some c →
              (l.rep.rstate = .rLoad ∨ l.rep.rstate = .rFill → t.lane n = { k with
                fifo := [], rep := ⟨.rWait, none, some ⟨c.desc, c.kind, .stoppedEarly, c.passes⟩⟩ })
              ∧ (l.rep.rstate = .rPlay ∨ l.rep.rstate = .rTrail → t.lane n = { k with
                rep := { l.rep with current := some { c with
                  stopRequested := c.stopRequested || !c.endPending } } }))
            ∧ (l.rep.rstate = .rWait → l.rep.current = none →
              (l.rep.finished.isSome = true → t.lane n = k)
              ∧ (l.rep.finished = none → t.lane n = { k with
                life := .stopped
                rep := ⟨.inactive, none, none⟩
                ring := l.ring.withdraw }))))

/-- ABORT (R119, R35, R86, R110, R122): ACCEPTED with nothing changed on a lane that is STOPPED or already
ending by ABORT, and no event; BUSY on a FAULTED one. From RUNNING, or STOPPING by STOP, the lane becomes
STOPPING with ENDING ABORT, or passes through to STOPPED and posts LANE_STOPPED with value ABORT (R120). A
capture lane's frame is closed as ABORTED at once and its records are left to complete. A meter lane's
measurement, armed or counting, ends as ABORTED and its result is disposed of (R81); a result being written
is left to complete. A replay record ends as ABORTED, or keeps PROFILE_CHANGED. A flush with no FLUSHED
descriptor in the return slot ends at once. That a RING_EMPTY of the disposition stands before LANE_STOPPED
is DEDUCED (log 12), and the values a released unit holds are the model's choice (log 16). -/
def Obligations.AbortEndsWork : Prop :=
  ∀ (s : State) (n : LaneId) (arg : BitVec 12), s.ctl.resetPending = false →
    let l := s.lane n
    let accepted := { l with lresult := LResult.accepted, writeIgnored := false }
    let k := { accepted with life := .stopping .abort }
    (l.life = .stopped ∨ l.life = .stopping .abort →
      exec (.abort n arg) s = .next (s.setLane n accepted))
    ∧ (∀ c, l.life = .faulted c →
        exec (.abort n arg) s = .next (s.setLane n { l with lresult := .busy }))
    ∧ (l.life = .running ∨ l.life = .stopping .stop → ∃ t, exec (.abort n arg) s = .next t
        ∧ (t.lane n).lresult = .accepted ∧ (t.lane n).writeIgnored = false
        ∧ sharedKept s t ∧ othersKept n s t ∧ busKept s t
        ∧ ((t.lane n).life = .stopping .abort ∨ (t.lane n).life = .stopped)
        ∧ (l.regs.lmode ≠ .meter → t.meters = s.meters
          ∧ ((t.lane n).life = .stopping .abort → t.queue = s.queue)
          ∧ ((t.lane n).life = .stopped →
              t.queue = s.queue.post s.time.count ⟨.laneStopped, some n, 2⟩))
        ∧ (l.regs.lmode = .capture →
            let closed := match l.cap.frame with
              | some f => k.closeFrame s.table f .aborted
              | none => k
            closed.cap.frame = none ∧ closed.cap.records.length = l.cap.records.length
            ∧ captureLeaves n { closed with
                cap := { closed.cap with cstate := .inactive, waiting := false } } s t)
        ∧ (∀ u, s.meters.heldBy n = some u → l.regs.lmode = .meter →
            let m := s.meters.get u
            (m.state = .armed ∨ m.state = .counting →
              measurementOver n u m (k.disposeResult m u .aborted) 2 s t)
            ∧ (m.state = .result → meterLeaves n u k m [] s t))
        ∧ (l.regs.lmode = .replay →
            (∀ c, l.rep.current = some c → t.lane n = { k with
              fifo := []
              rep := ⟨.rWait, none, some ⟨c.desc, c.kind,
                if c.endPending then .profileChanged else .aborted, c.passes⟩⟩ })
            ∧ (l.rep.current = none → l.rep.finished.isSome = true → t.lane n = k)
            ∧ (l.rep.current = none → l.rep.finished = none → t.lane n = { k with
                life := .stopped, rep := ⟨.inactive, none, none⟩, ring := l.ring.withdraw })))
    ∧ (∀ a, l.life = .flushing a → (∀ d, l.ring.ret ≠ some ⟨d, .flushed⟩) →
        ∃ t, exec (.abort n arg) s = .next t
          ∧ lanePosts n [⟨.flushDone, some n, l.ring.flcount⟩] s t
          ∧ t.lane n = { accepted with life := .stopped, ring := l.ring.withdraw })
    ∧ (∀ a d, l.life = .flushing a → l.ring.ret = some ⟨d, .flushed⟩ →
        ∃ t, exec (.abort n arg) s = .next t ∧ laneOnly n s t
          ∧ t.lane n = { accepted with life := .flushing true })

/-- SKIP (R121), judged in the rule's order: BAD_COMMAND for a count of 0 or above 1023 and on a REPLAY lane,
BUSY off RUNNING, and otherwise the skip count is taken.
FLUSH (R122, R144, R145): BUSY off STOPPED and BAD_CONFIG for an unfit RSIZE, with nothing else changed.
Otherwise FLCOUNT becomes 0 and the lane is FLUSHING: a held spare moves to the return slot as FLUSHED, with
nothing returning a fetch of the next entry is requested where one is posted (R136), a fetch or a return
under way goes on, and a flush that finds nothing ends at once with FLUSH_DONE 0. -/
def Obligations.SkipAndFlush : Prop :=
  (∀ (s : State) (n : LaneId) (arg : BitVec 12), s.ctl.resetPending = false →
    let l := s.lane n
    let answers (r : LResult) :=
      exec (.skip n arg) s = .next (s.setLane n { l with lresult := r })
    (arg = 0 ∨ 1023 < arg.toNat → answers .badCommand)
    ∧ (l.regs.lmode = .replay → answers .badCommand)
    ∧ (1 ≤ arg.toNat → arg.toNat ≤ 1023 → l.regs.lmode ≠ .replay → l.life ≠ .running →
        answers .busy)
    ∧ (1 ≤ arg.toNat → arg.toNat ≤ 1023 → l.regs.lmode ≠ .replay → l.life = .running →
        exec (.skip n arg) s = .next (s.setLane n { l with
          lresult := .accepted, writeIgnored := false, skipCount := arg.toNat })))
  ∧ ∀ (s : State) (n : LaneId) (arg : BitVec 12), s.ctl.resetPending = false →
    let l := s.lane n
    let fit := 2 ≤ l.ring.rsize.toNat ∧ l.ring.rsize.toNat ≤ 256
    let k := { l with
      lresult := LResult.accepted, writeIgnored := false, life := .flushing false
      ring := { l.ring with flcount := 0 } }
    (l.life ≠ .stopped → ∃ t, exec (.flush n arg) s = .next t ∧ laneOnly n s t
      ∧ t.lane n = { l with lresult := .busy })
    ∧ (l.life = .stopped → ¬ fit → ∃ t, exec (.flush n arg) s = .next t ∧ laneOnly n s t
        ∧ t.lane n = { l with lresult := .badConfig })
    ∧ (l.life = .stopped → fit → ∃ t, exec (.flush n arg) s = .next t
        ∧ (∀ d, l.ring.slot = .held d → laneOnly n s t ∧ t.lane n = { k with
            ring := { k.ring with slot := .empty, ret := some ⟨d, .flushed⟩ } })
        ∧ (l.ring.slot = .empty → l.ring.ret = none → l.ring.posted ≠ l.ring.consumed →
            laneOnly n s t ∧ t.lane n = { k with ring := { k.ring with
              slot := .fetching (l.ring.consumed.toNat % l.ring.rsize.toNat) false [] } })
        ∧ (l.ring.slot.isFetching = true ∨ (l.ring.slot = .empty ∧ l.ring.ret ≠ none) →
            laneOnly n s t ∧ t.lane n = k)
        ∧ (l.ring.slot = .empty → l.ring.ret = none → l.ring.posted = l.ring.consumed →
            lanePosts n [⟨.flushDone, some n, 0⟩] s t
            ∧ t.lane n = { k with life := .stopped }))

/-- RECOVER (R123): a FAULTED lane becomes STOPPED with its spare slot emptied and FLCOUNT 0, everything
else kept and no event posted; in every other state the answer is BUSY. -/
def Obligations.RecoverClearsFault : Prop :=
  ∀ (s : State) (n : LaneId) (arg : BitVec 12), s.ctl.resetPending = false →
    let l := s.lane n
    (∀ c, l.life = .faulted c → exec (.recover n arg) s = .next (s.setLane n { l with
        life := .stopped, lresult := .accepted, writeIgnored := false
        ring := { l.ring with slot := .empty, flcount := 0 } }))
    ∧ ((∀ c, l.life ≠ .faulted c) →
        exec (.recover n arg) s = .next (s.setLane n { l with lresult := .busy }))

/-- RESET (R124, R128, R129, R159): in every state the lane takes its reset values with LRESULT ACCEPTED, its
meter units are released, and a burst of it in progress ends after its current word cycle. Its levels are
the one the board holds at the pin, also where the part was driving it (log 3). Nothing of
the other lanes, the table, the timebase, device control, the event queue, the fault record, the
pointer or RESPLIM changes. -/
def Obligations.LaneResetValues : Prop :=
  ∀ (s : State) (n : LaneId) (arg : BitVec 12), s.ctl.resetPending = false →
    ∃ t, exec (.reset n arg) s = .next t
      ∧ laneResetValues (s.lane n).line s.time.count .accepted (t.lane n)
      ∧ sharedKept s t ∧ othersKept n s t ∧ t.queue = s.queue
      ∧ (∀ u, (s.meters.get u).claim = some n → (t.meters.get u).claim = none)
      ∧ (∀ u, (s.meters.get u).claim ≠ some n → t.meters.get u = s.meters.get u)
      ∧ t.bus.fault = s.bus.fault ∧ t.bus.ptr = s.bus.ptr ∧ t.bus.resplim = s.bus.resplim
      ∧ (∀ b, s.bus.burst = some b → b.lane = n →
          t.bus.burst = some { b with remaining := 1, orphan := true })
      ∧ (∀ b, s.bus.burst = some b → b.lane ≠ n → t.bus = s.bus)

/-! ## The ring controller -/

/-- A write to POSTED (R132): refused for d above RSIZE, or for d 0 while the slot is FETCHING, with
POST_REFUSED set and POSTED kept; otherwise POSTED takes the value, POST_REFUSED is cleared, the latch
is cleared if POSTED now differs from CONSUMED, and a fetch is requested if the conditions of R136 hold.
Over an empty ring a flush with nothing left ends (R145). A write to RBASE or RSIZE (R130): taken only
on a STOPPED lane with no burst of its ring controller requested or in progress, it re-initialises the
ring controller, discards a held spare, and keeps FLCOUNT, the sequence counter and the dropped counter;
RBASE keeps its low 3 bits 0. Otherwise it is ignored and WRITE_IGNORED is set (R125). That each word of
RBASE re-initialises by itself is log 17. -/
def Obligations.RingRegistersWritten : Prop :=
  (∀ (s : State) (n : LaneId) (w : Word), s.ctl.resetPending = false →
    let l := s.lane n
    let d := w - l.ring.consumed
    let refused := l.ring.rsize < d ∨ (d = 0 ∧ l.ring.slot.isFetching = true)
    let drained := l.life.isFlushing = true ∧ l.ring.slot = .empty ∧ l.ring.ret = none
      ∧ w = l.ring.consumed
    (refused → ∃ t, exec (.postedWrite n w) s = .next t ∧ laneOnly n s t
      ∧ t.lane n = { l with ring := { l.ring with postRefused := true } })
    ∧ (¬ refused → ∃ t, exec (.postedWrite n w) s = .next t ∧ sharedKept s t ∧ othersKept n s t
      ∧ busKept s t ∧ t.meters = s.meters
      ∧ (t.lane n).ring = { l.ring with
          posted := w, postRefused := false
          ringEmpty := if w = l.ring.consumed then l.ring.ringEmpty else false
          slot := if l.life.fetches = true ∧ l.ring.slot = .empty ∧ l.ring.ret = none
                      ∧ w ≠ l.ring.consumed then
                    .fetching (l.ring.consumed.toNat % l.ring.rsize.toNat) false []
                  else l.ring.slot }
      ∧ t.lane n = { l with life := (t.lane n).life, ring := (t.lane n).ring }
      ∧ (drained → (t.lane n).life = .stopped
          ∧ t.queue = s.queue.post s.time.count ⟨.flushDone, some n, l.ring.flcount⟩)
      ∧ (¬ drained → (t.lane n).life = l.life ∧ t.queue = s.queue)))
  ∧ ∀ (s : State) (n : LaneId) (high : Bool) (w : Word), s.ctl.resetPending = false →
    let l := s.lane n
    let free := l.life = .stopped ∧ l.ring.slot.isFetching = false ∧ l.ring.ret = none
    let fresh : Ring := { l.ring with
      posted := 0, consumed := 0, slot := .empty, ringEmpty := false, postRefused := false }
    let base : Addr := if high then w.extractLsb' 0 8 ++ l.ring.rbase.extractLsb' 0 16
                       else l.ring.rbase.extractLsb' 16 8 ++ (w &&& 0xFFF8)
    (free → exec (.rbaseWrite n high w) s
        = .next (s.setLane n { l with ring := { fresh with rbase := base } })
      ∧ exec (.rsizeWrite n w) s
        = .next (s.setLane n { l with ring := { fresh with rsize := w } }))
    ∧ (¬ free → ∀ c ∈ [Instr.rbaseWrite n high w, .rsizeWrite n w],
        exec c s = .next (s.setLane n { l with writeIgnored := true }))

/-! ## The bus master -/

/-- The transfer a lane presents (R148), at the address and of the length R153 gives: none while a burst
of it is in progress; on a lane at work its engine's, then the return write-back, then the fetch not yet
granted (R136); a FLUSHING lane has only the last two and a STOPPED one only the return. Of a capture
lane: the oldest record's next step, a DRAIN when 8 intervals wait or its frame is closed with one left
(R38, R40, R41). Of a meter lane: the header, in two bursts, then the write-back (R82). Of a replay
lane: a FILL that the FIFO has room for (R96), the LOAD of R_LOAD (R94, R95), then the finished record's
write-back (R108). URGENT (R150): a capture FIFO of 24 or more, and a playing FIFO of 8 or fewer with
words still to fetch. -/
def Obligations.RequestsPresented : Prop :=
  (∀ (s : State) (n : LaneId),
    (∀ b, s.bus.burst = some b → b.lane = n → s.request n = none)
    ∧ ((∀ b, s.bus.burst = some b → b.lane ≠ n) → s.request n = (s.lane n).request))
  ∧ ∀ l : Lane,
    let entry (i : Nat) : Addr := l.ring.rbase + BitVec.ofNat 24 (8 * i)
    let ret : Option Request := match l.ring.ret with
      | some x => some ⟨.writeback, true, entry x.desc.index, 2⟩
      | none => none
    let fetch : Option Request := match l.ring.slot with
      | .fetching i false _ => some ⟨.fetch, false, entry i, 4⟩
      | _ => none
    (l.life.active = true → l.request = (l.engineRequest.or ret).or fetch)
    ∧ (l.life.isFlushing = true → l.request = ret.or fetch)
    ∧ (l.life = .stopped → l.request = ret)
    ∧ (∀ c, l.life = .faulted c → l.request = none)
    ∧ (l.regs.lmode = .none → l.engineRequest = none)
    ∧ (l.regs.lmode = .capture → l.cap.records = [] → l.engineRequest = none)
    ∧ (∀ r rs, l.cap.records = r :: rs → l.regs.lmode = .capture →
        let word (k : Nat) : Addr := r.desc.addr + BitVec.ofNat 24 (2 * k)
        let drains := 8 ≤ leading l.fifo ∨ (r.close.isSome = true ∧ 1 ≤ leading l.fifo)
        l.engineRequest = (match r.step with
          | .drain => if drains then
              some ⟨.drain, false, word (8 + r.drained), min 8 (leading l.fifo)⟩ else none
          | .decode => some ⟨.decode, false, word (8 + r.stored), 5⟩
          | .header => some ⟨.header, false, r.desc.addr, 8⟩
          | .writeback => some ⟨.writeback, false, entry r.desc.index, 2⟩))
    ∧ (l.regs.lmode = .meter → l.result = none → l.engineRequest = none)
    ∧ (∀ r, l.result = some r → l.regs.lmode = .meter → l.engineRequest = (match r.step with
          | .header1 => some ⟨.header, false, r.desc.addr, 8⟩
          | .header2 => some ⟨.header, false, r.desc.addr + 16, if r.spread = true then 5 else 1⟩
          | .writeback => some ⟨.writeback, false, entry r.desc.index, 2⟩))
    ∧ (let done : Option Request := match l.rep.finished with
          | some f => some ⟨.writeback, false, entry f.desc.index, 2⟩
          | none => none
      l.regs.lmode = .replay →
        (l.rep.current = none → l.engineRequest = done)
        ∧ ∀ c, l.rep.current = some c →
          let left := min 8 (c.count.toNat - c.fetched)
          let fills := c.kind = some .intervals ∧ c.endPending = false ∧ c.fetched < c.count.toNat
            ∧ (l.rep.rstate = .rFill ∨ l.rep.rstate = .rPlay
              ∨ (l.rep.rstate = .rTrail ∧ c.passes < c.repeatCount.toNat
                ∧ c.stopRequested = false))
            ∧ l.fifo.length + left ≤ 32
          l.engineRequest = if fills then
              some ⟨.fill, false, c.desc.addr + BitVec.ofNat 24 (2 * (4 + c.fetched)), left⟩
            else if l.rep.rstate = .rLoad then
              if c.kind = none then some ⟨.load, false, c.desc.addr, 4⟩
              else some ⟨.load, false, c.desc.addr + 8, (c.bitCount.toNat + 15) / 16⟩
            else done)
    ∧ (l.urgent = true ↔ l.life.active = true
        ∧ ((l.regs.lmode = .capture ∧ 24 ≤ l.fifo.length)
          ∨ (l.regs.lmode = .replay ∧ l.rep.rstate = .rPlay ∧ l.fifo.length ≤ 8
            ∧ ∃ c, l.rep.current = some c ∧ c.kind = some .intervals
              ∧ c.fetched < c.count.toNat)))

/-- With the bus IDLE and no soft reset pending no lane presents a request, so the bus request is raised in the
happening that presents one (R148, R151, R160); and a FAULTED lane returns no descriptor (R126, R146). Every
step keeps this. -/
def Obligations.IdleBusMeansNoRequest : Prop :=
  keptByStep fun s => requestRaised s ∧ everyLane faultedClear s

/-- BUS_GRANT (R151, R152, R153, R154): the arbiter takes the first URGENT request in lane order from
the pointer, or with none URGENT the first request; the pointer moves past the lane, the burst takes the
request's words and its first cycle begins, with its first word and the response limit held then, and a
fetch chosen is marked begun. With no request presented the bus is released and the pointer kept; a
grant that was not asked for changes nothing (R160). The data word of a read cycle is the model's choice
(log 27). -/
def Obligations.GrantChoosesFromPointer : Prop :=
  ∀ s : State,
    let asks (n : LaneId) := (s.request n).isSome = true
    let urgent (n : LaneId) := asks n ∧ (s.lane n).urgent = true
    let before (m n : LaneId) := (m - s.bus.ptr).val < (n - s.bus.ptr).val
    (∀ n q, s.bus.bstate = .requesting → s.request n = some q →
      ((urgent n ∧ ∀ m, before m n → ¬ urgent m)
        ∨ ((∀ m, ¬ urgent m) ∧ ∀ m, before m n → ¬ asks m)) →
      ∃ t b, exec .busGrant s = .next t
        ∧ t.bus = { s.bus with bstate := .owned b, ptr := n + 1 }
        ∧ b.lane = n ∧ b.purpose = q.purpose ∧ b.forRing = q.forRing ∧ b.base = q.base
        ∧ b.done = 0 ∧ b.remaining = q.words ∧ b.orphan = false
        ∧ b.cycle.limit = s.bus.resplim ∧ b.cycle.elapsed = 0
        ∧ b.cycle.addr = (if q.purpose = .writeback then q.base + 6 else q.base)
        ∧ b.cycle = s.beginCycle n q.purpose q.forRing q.base 0
        ∧ sharedKept s t ∧ othersKept n s t ∧ t.queue = s.queue ∧ t.meters = s.meters
        ∧ (q.purpose ≠ .fetch → t.lane n = s.lane n)
        ∧ (∀ i g ws, q.purpose = .fetch → (s.lane n).ring.slot = .fetching i g ws →
            t.lane n = { s.lane n with
              ring := { (s.lane n).ring with slot := .fetching i true ws } }))
    ∧ (s.bus.bstate = .requesting → (∀ n, ¬ asks n) →
        exec .busGrant s = .next { s with bus := { s.bus with bstate := .idle } })
    ∧ (s.bus.bstate ≠ .requesting → exec .busGrant s = .next s)

/-- WORD_ACK (R153, R154, R159) short of the last word: the next cycle begins, at the next address, with
its word and the response limit held now, and the word acknowledged reaches the lane: a FETCH word joins
the copy, a FILL word the FIFO, and the one that reaches R97's threshold ends R_FILL; a LOAD word the
engine, and a DRAIN word's interval leaves the FIFO; of any other purpose the lane is unchanged. A lane
that has been reset meanwhile is not reached, and the bus is released (R159). With no burst in progress
nothing happens (log 15). The data word of a read cycle (log 27), and what fields of a replay record no
rule sets hold (log 25), are the model's choice. -/
def Obligations.WordAcknowledged : Prop :=
  (∀ (s : State) (data : Word), s.bus.burst = none → exec (.wordAck data) s = .next s)
  ∧ ∀ (s : State) (b : Burst) (data : Word), s.ctl.resetPending = false → s.bus.bstate = .owned b →
    let l := s.lane b.lane
    (b.orphan = false → 1 < b.remaining → ∃ t c, exec (.wordAck data) s = .next t
      ∧ t.bus = { s.bus with bstate := .owned { b with
          done := b.done + 1, remaining := b.remaining - 1, cycle := c } }
      ∧ c = t.beginCycle b.lane b.purpose b.forRing b.base (b.done + 1)
      ∧ c.addr = (if b.purpose = .writeback then b.base
                  else b.base + BitVec.ofNat 24 (2 * (b.done + 1)))
      ∧ c.limit = s.bus.resplim ∧ c.elapsed = 0
      ∧ sharedKept s t ∧ othersKept b.lane s t ∧ t.queue = s.queue ∧ t.meters = s.meters
      ∧ (∀ i g ws, l.ring.slot = .fetching i g ws → b.purpose = .fetch →
          t.lane b.lane = { l with ring := { l.ring with slot := .fetching i g (ws ++ [data]) } })
      ∧ (∀ r, l.rep.current = some r → b.purpose = .fill →
          t.lane b.lane = fillTaken l r data)
      ∧ (∀ r, l.rep.current = some r → b.purpose = .load → t.lane b.lane = { l with
          rep := { l.rep with current := some { r with loaded := r.loaded ++ [data] } } })
      ∧ (b.purpose = .fill ∨ b.purpose = .load → l.rep.current = none → t.lane b.lane = l)
      ∧ (∀ v w rest r rs, l.fifo = .interval v :: .interval w :: rest →
          l.cap.records = r :: rs → b.purpose = .drain → c.data = w
          ∧ t.lane b.lane = { l with
              fifo := .interval w :: rest
              cap := { l.cap with records := { r with drained := r.drained + 1 } :: rs } })
      ∧ (b.purpose = .header ∨ b.purpose = .decode ∨ b.purpose = .writeback →
          t.lane b.lane = l))
    ∧ (b.orphan = true → ∃ t, exec (.wordAck data) s = .next t ∧ burstEnded b.lane s t
        ∧ t.lanes = s.lanes)

/-- The last acknowledge of a burst that is no fetch and no write-back releases the bus (R151, R154),
and the lane learns the burst's end. FILL: the word enters the FIFO, and the one that reaches R97's
threshold ends R_FILL. LOAD: the fourth header word brings the header check (R95); the last data word
gives the value, low word first (R62), and play-out begins. DRAIN: the interval leaves the FIFO, and
each end marker that comes to the head completes a drain, whose record goes on to its decode section if
it is DECODED and else to its header (R39). DECODE: the header comes next; HEADER: the write-back (R40),
and for a meter record its second header burst first (R82). What fields of a replay record no rule sets
hold is the model's choice (log 25). -/
def Obligations.LastWordEndsBurst : Prop :=
  ∀ (s : State) (b : Burst) (data : Word), s.ctl.resetPending = false → s.bus.bstate = .owned b →
    b.orphan = false → b.remaining ≤ 1 → b.purpose ≠ .fetch → b.purpose ≠ .writeback →
    let n := b.lane
    let l := s.lane n
    ∃ t, exec (.wordAck data) s = .next t ∧ burstEnded n s t
      ∧ (∀ c, l.rep.current = some c → b.purpose = .fill → t.lane n = fillTaken l c data)
      ∧ (b.purpose = .fill ∨ b.purpose = .load → l.rep.current = none → t.lane n = l)
      ∧ (∀ c, l.rep.current = some c → b.purpose = .load → l.rep.rstate = .rLoad →
          let c' := { c with loaded := c.loaded ++ [data] }
          (c.kind = none → t.lane n
            = { l with rep := { l.rep with current := some c' } }.checkHeader s.table c')
          ∧ (c.kind ≠ none → ∃ v : BitVec 64,
              (∀ i, i < 64 → v.getLsbD i = ((c'.loaded[i / 16]?).getD 0).getLsbD (i % 16))
              ∧ t.lane n = { l with rep := { l.rep with
                  rstate := .rPlay
                  current := some { c with
                    value := v, loaded := [], played := 0, playing := none, tickSeen := false } } }))
      ∧ (∀ v rest, l.fifo = .interval v :: rest → ∀ r rs, l.cap.records = r :: rs →
          b.purpose = .drain →
          let left (q : Record) := { q with
            step := if q.decoded.isSome = true then .decode else .header }
          let r' := { r with drained := r.drained + 1 }
          (rest.head? ≠ some .endMarker → t.lane n = { l with
            fifo := rest, cap := { l.cap with records := r' :: rs } })
          ∧ (∀ e more, rest = e :: more → e = .endMarker → r.step = .drain →
            (more.head? ≠ some .endMarker → t.lane n = { l with
              fifo := more, cap := { l.cap with records := left r' :: rs } })
            ∧ (∀ e' last, more = e' :: last → e' = .endMarker → ∀ q, rs = [q] → q.step = .drain →
              last.head? ≠ some .endMarker → t.lane n = { l with
                fifo := last, cap := { l.cap with records := [left r', left q] } })))
      ∧ (∀ r rs, l.cap.records = r :: rs → b.purpose = .decode → t.lane n = { l with
          cap := { l.cap with records := { r with step := .header } :: rs } })
      ∧ (∀ r rs, l.cap.records = r :: rs → b.purpose = .header → l.regs.lmode = .capture →
          t.lane n = { l with
            cap := { l.cap with records := { r with step := .writeback } :: rs } })
      ∧ (∀ r, l.result = some r → b.purpose = .header → l.regs.lmode = .meter →
          t.lane n = { l with result := some { r with
            step := if r.step = .header1 then .header2 else .writeback } })

/-- The words the part writes, as a word cycle takes them (R154). A frame record's header and decode section
(R42, R63), a meter record (R83), both at the places and in the codes of R184, an interval in its DRAIN word
(R38), and a write-back's two words: the written length in [11:0] of word 3, and owner HOST with the status
in word 0 (R140, R183). -/
def Obligations.WordsWritten : Prop :=
  ∀ (s : State) (n : LaneId) (ring : Bool) (base : Addr) (k : Nat),
    let l := s.lane n
    let written (p : Purpose) : Word := (s.beginCycle n p ring base k).data
    (∀ r rs, l.cap.records = r :: rs → l.regs.lmode = .capture →
      (∀ w, w = written .header →
        (k = 0 → w.extractLsb' 0 4 = 1 ∧ (∀ why, r.close = some why → w.extractLsb' 4 4 = closeNumber why)
          ∧ w.getLsbD 8 = decide (r.stored < r.total) ∧ w.getLsbD 9 = r.decoded.isSome
          ∧ w.extractLsb' 10 6 = 0)
        ∧ (k = 1 → w = r.seq) ∧ (k = 2 → w = r.droppedBefore)
        ∧ (k = 3 → w = r.start.extractLsb' 0 16) ∧ (k = 4 → w = r.start.extractLsb' 16 16)
        ∧ (k = 5 → w = BitVec.ofNat 16 r.total) ∧ (k = 6 → w = BitVec.ofNat 16 r.stored)
        ∧ (k = 7 → w = BitVec.ofNat 16 r.glitches))
      ∧ (∀ d, r.decoded = some d → ∀ w, w = written .decode →
        (k = 0 → (w.extractLsb' 0 4).toNat = d.profile.val ∧ w.getLsbD 4 = d.isRepeat
          ∧ w.extractLsb' 5 3 = 0 ∧ w.extractLsb' 8 8 = BitVec.ofNat 8 d.bits)
        ∧ (1 ≤ k → k ≤ 4 → w = d.value.extractLsb' (16 * (k - 1)) 16))
      ∧ (ring = false →
        (k = 0 → written .writeback = BitVec.ofNat 16
          ((8 + r.stored + if r.decoded.isSome = true then 5 else 0) % 4096))
        ∧ (k = 1 → written .writeback = statusNumber .record)))
    ∧ (∀ v rest, l.fifo = .interval v :: rest → written .drain = v)
    ∧ (∀ r, l.result = some r → l.regs.lmode = .meter →
      (∀ w, w = written .header → ∀ j, j = (if r.step = .header2 then 8 + k else k) →
        (j = 0 → w.extractLsb' 0 4 = 2 ∧ w.extractLsb' 4 4 = closeNumber r.close
          ∧ w.getLsbD 8 = r.spread ∧ w.getLsbD 9 = r.sat ∧ w.extractLsb' 10 6 = 0)
        ∧ (j = 1 → w = r.seq) ∧ (j = 2 → w = r.droppedBefore)
        ∧ (j = 3 → w = r.start.extractLsb' 0 16) ∧ (j = 4 → w = r.start.extractLsb' 16 16)
        ∧ (j = 5 → w.extractLsb' 0 2 = r.mode ∧ w.extractLsb' 2 2 = 0
            ∧ (w.extractLsb' 4 12).toNat = r.unit.val)
        ∧ (j = 6 → w = BitVec.ofNat 16 r.items)
        ∧ (j = 7 → w = r.total.extractLsb' 0 16) ∧ (j = 8 → w = r.total.extractLsb' 16 16)
        ∧ (j = 9 → w = r.minItem.extractLsb' 0 16) ∧ (j = 10 → w = r.minItem.extractLsb' 16 16)
        ∧ (j = 11 → w = r.maxItem.extractLsb' 0 16) ∧ (j = 12 → w = r.maxItem.extractLsb' 16 16))
      ∧ (ring = false → (k = 0 → written .writeback = if r.spread = true then 13 else 9)
        ∧ (k = 1 → written .writeback = statusNumber .record)))
    ∧ (∀ f, l.rep.finished = some f → l.regs.lmode = .replay → ring = false →
        (k = 0 → written .writeback = BitVec.ofNat 16 (f.passes % 4096))
        ∧ (k = 1 → written .writeback = statusNumber f.status))
    ∧ ∀ x, l.ring.ret = some x → ring = true →
        (k = 0 → written .writeback = 0)
        ∧ (k = 1 → written .writeback = (match x.status with | .badBuffer => 2 | .flushed => 3))

/-- FETCH_COMPLETE (R137, R134, R144): the fourth word of a fetch ends it. Owner DEVICE: CONSUMED increments
and the copy is held, or while FLUSHING goes to the return slot as FLUSHED, and a waiting replay engine
takes it (R93, R94), after which the next fetch follows where R136 allows. Owner HOST: the lane enters
FAULTED with DESC_OWNER as R126 states, its work abandoned and counted (R87, R112), and neither CONSUMED nor
the fault record changes (R127). In no other word cycle does the command do anything (log 15). -/
def Obligations.FetchCompletes : Prop :=
  ∀ (s : State) (b : Burst) (w3 : Word), s.ctl.resetPending = false → s.bus.bstate = .owned b →
    let l := s.lane b.lane
    (∀ i g w0 w1 w2, b.orphan = false → b.purpose = .fetch → b.done = 3 → b.remaining ≤ 1 →
      l.ring.slot = .fetching i g [w0, w1, w2] →
      let copy : Desc := ⟨i, .device, w2.extractLsb' 0 8 ++ w1, w3.extractLsb' 0 12⟩
      let counted := { l.ring with consumed := l.ring.consumed + 1 }
      let waits := l.runs .replay ∧ l.life = .running ∧ l.rep.rstate = .rWait
        ∧ l.rep.finished = none
      (w0.getLsbD 15 = true → ∃ t, exec (.fetchComplete w3) s = .next t
        ∧ t.bus.burst = none ∧ sharedKept s t ∧ othersKept b.lane s t ∧ t.queue = s.queue
        ∧ t.meters = s.meters ∧ t.bus.fault = s.bus.fault
        ∧ (l.life.isFlushing = true → t.lane b.lane = { l with
            ring := { counted with slot := .empty, ret := some ⟨copy, .flushed⟩ } })
        ∧ (l.life.isFlushing = false → ¬ waits →
            t.lane b.lane = { l with ring := { counted with slot := .held copy } })
        ∧ (waits →
            replayTakes l copy { counted with slot := refilled counted } (t.lane b.lane)))
      ∧ (w0.getLsbD 15 = false → ∃ t, exec (.fetchComplete w3) s = .next t
        ∧ t.bus.burst = none ∧ sharedKept s t ∧ othersKept b.lane s t
        ∧ t.bus.fault = s.bus.fault ∧ laneFaulted b.lane .descOwner 3 s t))
    ∧ (b.purpose ≠ .fetch ∨ b.done ≠ 3 → exec (.fetchComplete w3) s = .next s)

/-- WRITE_BACK (R140, R41, R43, R82, R84, R108, R111, R139, R144, R145): the owner word's acknowledge hands
the descriptor back. The record leaves its place and its event is posted; where the lane's work finishes
with it LANE_STOPPED follows. A RUNNING replay engine then takes a held spare, whose buffer may be
MALFORMED (R93, R94), or with none held, and the ring dry, posts RING_EMPTY behind REPLAY_DONE (R93, R143; that
order is log 12). A return write-back empties the return slot and counts a FLUSHED one; the next fetch
follows where R136 allows, and on a FLUSHING lane with nothing left, or one that ABORT ends, the end of the
flush. Nothing else of the lane changes. In no other word cycle does the command do anything (log 15). -/
def Obligations.WriteBackHandsBack : Prop :=
  ∀ (s : State) (b : Burst), s.ctl.resetPending = false → s.bus.bstate = .owned b →
    let n := b.lane
    let l := s.lane n
    let posts (es : List Event) (t : State) :=
      exec .writeBack s = .next t ∧ t.bus.burst = none ∧ sharedKept s t ∧ othersKept n s t
        ∧ t.bus.fault = s.bus.fault
        ∧ t.queue = es.foldl (fun q e => q.post s.time.count e) s.queue
    let stopped (v : Word) : Event := ⟨.laneStopped, some n, v⟩
    (b.orphan = false → b.purpose = .writeback → b.done = 1 → b.remaining ≤ 1 →
      (∀ r rs, l.cap.records = r :: rs → b.forRing = false → l.regs.lmode = .capture →
        (l.life = .running ∨ l.cap.frame ≠ none ∨ rs ≠ [] →
          ∃ t, posts [⟨.frameRecord, some n, r.seq⟩] t
            ∧ t.lane n = { l with cap := { l.cap with records := rs } })
        ∧ (∀ e, l.life = .stopping e → l.cap.frame = none → rs = [] →
          ∃ t, posts [⟨.frameRecord, some n, r.seq⟩, stopped (endingCode e)] t
            ∧ t.lane n = { l with
                life := .stopped
                cap := { l.cap with cstate := .inactive, waiting := false, records := [] }
                ring := l.ring.withdraw }))
      ∧ (∀ r, l.result = some r → ∀ u, s.meters.heldBy n = some u → b.forRing = false →
          l.regs.lmode = .meter →
        ((s.meters.get u).state ≠ .result →
          ∃ t, posts [⟨.meterRecord, some n, r.seq⟩] t
            ∧ t.lane n = { l with result := none } ∧ t.meters = s.meters)
        ∧ ((s.meters.get u).state = .result →
          let left (t : State) := (t.meters.get u).claim = none
            ∧ (∀ v, v ≠ u → t.meters.get v = s.meters.get v)
            ∧ t.lane n = { l with life := .stopped, result := none, ring := l.ring.withdraw }
          (l.life = .running →
            ∃ t, posts [⟨.meterRecord, some n, r.seq⟩, stopped 3] t ∧ left t)
          ∧ (∀ e, l.life = .stopping e →
            ∃ t, posts [⟨.meterRecord, some n, r.seq⟩, stopped (endingCode e)] t ∧ left t)))
      ∧ (∀ f, l.rep.finished = some f → l.rep.current = none → b.forRing = false →
          l.regs.lmode = .replay →
        (∀ e, l.life = .stopping e →
          ∃ t, posts [⟨.replayDone, some n, statusNumber f.status⟩, stopped (endingCode e)] t
            ∧ t.lane n = { l with
                life := .stopped, rep := ⟨.inactive, none, none⟩, ring := l.ring.withdraw })
        ∧ (l.life = .running → l.rep.rstate = .rWait →
          ((∀ d, l.ring.slot ≠ .held d) →
            (l.ring.posted = l.ring.consumed → l.ring.ringEmpty = false →
              ∃ t, posts [⟨.replayDone, some n, statusNumber f.status⟩,
                  ⟨.ringEmpty, some n, l.ring.consumed⟩] t
                ∧ t.lane n = { l with
                    rep := { l.rep with finished := none }
                    ring := { l.ring with ringEmpty := true } })
            ∧ (l.ring.posted ≠ l.ring.consumed ∨ l.ring.ringEmpty = true →
              ∃ t, posts [⟨.replayDone, some n, statusNumber f.status⟩] t
                ∧ t.lane n = { l with rep := { l.rep with finished := none } }))
          ∧ ∀ d, l.ring.slot = .held d →
            ∃ t, posts [⟨.replayDone, some n, statusNumber f.status⟩] t
              ∧ replayTakes l d { l.ring with slot := refilled l.ring } (t.lane n)))
      ∧ (∀ x, l.ring.ret = some x → b.forRing = true →
        let counted := if x.status = .flushed then l.ring.flcount + 1 else l.ring.flcount
        let ring := { l.ring with
          ret := none
          flcount := counted
          slot := if l.ring.slot = .empty ∧ l.life.fetches = true then
              refilled { l.ring with ret := none }
            else l.ring.slot }
        let nothingLeft := l.ring.slot = .empty ∧ l.ring.posted = l.ring.consumed
        (l.life.isFlushing = false ∨ (l.life = .flushing false ∧ ¬ nothingLeft) →
          ∃ t, posts [] t ∧ t.lane n = { l with ring := ring })
        ∧ (l.life = .flushing false → nothingLeft →
          ∃ t, posts [⟨.flushDone, some n, counted⟩] t
            ∧ t.lane n = { l with life := .stopped, ring := ring })
        ∧ (l.life = .flushing true →
          ∃ t, posts [⟨.flushDone, some n, counted⟩] t
            ∧ t.lane n = { l with
                life := .stopped
                ring := { l.ring.withdraw with ret := none, flcount := counted } })))
    ∧ (b.purpose ≠ .writeback ∨ b.done ≠ 1 → exec .writeBack s = .next s)

/-- ERROR_REPLY and NO_RESPONSE (R155, R156, R157, R126, R127, R159, R112): the burst ends, the fault record
takes a first fault and marks a further one, and the lane enters FAULTED with the cause, its work
abandoned and counted, its meter unit released and LANE_FAULT posted. No other lane changes. A lane that
has been reset while the cycle ran is not reached. NO_RESPONSE takes effect once the word cycle has lasted
the limit it began with, RESPLIM as it was then (R155); before that, and with no word cycle in progress,
it changes nothing (log 1). That ERROR_REPLY with no word cycle in progress changes nothing is the model's
choice (log 15). FCLR (R158): any value clears VALID and MULTI and keeps the other fields, so that the next
bus fault is captured as a first one. -/
def Obligations.FailedCycleFaultsLane : Prop :=
  (∀ (s : State) (w : Word), s.ctl.resetPending = false →
    exec (.fclr w) s = .next { s with bus := { s.bus with
      fault := { s.bus.fault with valid := false, multi := false } } })
  ∧ (∀ (s : State) (b : Burst), s.bus.bstate = .owned b → b.cycle.elapsed < b.cycle.limit.toNat →
      exec .noResponse s = .next s)
  ∧ (∀ s : State, s.bus.burst = none →
      exec .noResponse s = .next s ∧ exec .errorReply s = .next s)
  ∧ ∀ (s : State) (b : Burst), s.ctl.resetPending = false → s.bus.bstate = .owned b →
    ∀ x ∈ [(Instr.errorReply, true, FaultCause.errorReply, (2 : Word)),
        (.noResponse, false, .noResponse, 1)],
    x.1 = .errorReply ∨ b.cycle.limit.toNat ≤ b.cycle.elapsed →
    let n := b.lane
    ∃ t, exec x.1 s = .next t ∧ t.bus.burst = none ∧ sharedKept s t ∧ othersKept n s t
      ∧ t.bus.ptr = s.bus.ptr ∧ t.bus.resplim = s.bus.resplim
      ∧ (s.bus.fault.valid = false → t.bus.fault
          = ⟨true, s.bus.fault.multi, b.cycle.addr, b.purpose.isWrite, n, b.purpose, x.2.1⟩)
      ∧ (s.bus.fault.valid = true → t.bus.fault = { s.bus.fault with multi := true })
      ∧ (b.orphan = true → t.lanes = s.lanes ∧ t.queue = s.queue ∧ t.meters = s.meters)
      ∧ (b.orphan = false → laneFaulted n x.2.2.1 x.2.2.2 s t)

/-! ## What every step keeps -/

/-- Every step keeps the profile table right (R45, R50): a VALID entry passes all the commit checks, and an
EMPTY one holds zeros in every field. Every step keeps the meter pool right (R71): a unit is claimed only by
a lane whose mode is METER and which is RUNNING or STOPPING, and no lane holds both units. Every step keeps
the event queue right (R163, R170, R171, R172): at most 32 entries, the newest OVERFLOW where there are 32, no
two OVERFLOW entries side by side, no timer and a clear latch over an empty queue, and ITHRESH in its
range. -/
def Obligations.TablePoolAndQueueStayRight : Prop :=
  keptByStep (fun s => ∀ i, profileOk (s.table.get i))
  ∧ keptByStep poolOk
  ∧ keptByStep fun s => queueOk s.queue ∧ noAdjacentOverflow s.queue.entries = true

/-- Every step keeps the settings and the rings right (R1, R2, R12, R130, R131, R161): PRESCALE and RESPLIM in
their ranges, the phase below PRESCALE and 0 while ENABLE is 0, no lane at work while ENABLE is 0, and on
every lane POSTED − CONSUMED between 0 and RSIZE, a posted descriptor behind every fetch, and a ring on an
8-byte boundary. -/
def Obligations.SettingsAndRingsStayRight : Prop :=
  keptByStep fun s => timeOk s ∧ enabledWhileActive s ∧ 16 ≤ s.bus.resplim.toNat
    ∧ everyLane (fun l => ringOk l.ring) s

/-- Every step keeps the sequence rule of R41 on every lane: the open records are at most two, each is
numbered one above the one before it plus its own dropped-before count, and the sequence counter stands
one above the newest plus the dropped counter; and work is held only by a lane at work in its mode
(R120). -/
def Obligations.RecordsStayNumbered : Prop :=
  keptByStep fun s => everyLane (fun l => workOk l ∧ recordsOk l) s

/-- Every step keeps every lane FIFO within its 32 entries (R28, R96): a kept frame leaves room for its end
marker, and a FILL burst in progress has room for all its remaining words, which is why a FILL word never
meets a full FIFO. -/
def Obligations.FifosStayBounded : Prop :=
  keptByStep fun s => everyLane (fun l => workOk l ∧ fifoOk l) s ∧ fillRoomOk s

/-- State.reset meets every condition that a step keeps. Its pins are LOW (log 2). -/
def Obligations.ResetMeetsInvariants : Prop :=
  let s := State.reset
  (∀ i, profileOk (s.table.get i)) ∧ everyLane filterOk s ∧ poolOk s
    ∧ queueOk s.queue ∧ noAdjacentOverflow s.queue.entries = true
    ∧ timeOk s ∧ enabledWhileActive s ∧ 16 ≤ s.bus.resplim.toNat
    ∧ everyLane (fun l => ringOk l.ring ∧ workOk l ∧ recordsOk l ∧ fifoOk l ∧ faultedClear l) s
    ∧ fillRoomOk s ∧ requestRaised s
end

