-- ==== Sys2Proof/Laws/State.lean ====
section
/-! SUPPORT. What each update of the state leaves of each field: one lemma per field per update, so that
no later proof unfolds a record update. -/

namespace Sys2Proof

/-! ## Eight like things -/

@[simp] theorem Eight.get_fill {α : Type} (a : α) (i : Fin 8) : (Eight.fill a).get i = a := by
  fin_cases i <;> rfl

@[simp] theorem Eight.get_set_self {α : Type} (v : Eight α) (i : Fin 8) (a : α) :
    (v.set i a).get i = a := by
  fin_cases i <;> rfl

@[simp] theorem Eight.get_set_ne {α : Type} (v : Eight α) {i j : Fin 8} (a : α) (h : j ≠ i) :
    (v.set i a).get j = v.get j := by
  fin_cases i <;> fin_cases j <;> first | rfl | exact absurd rfl h

@[simp] theorem Eight.get_mapIdx {α β : Type} (f : Fin 8 → α → β) (v : Eight α) (i : Fin 8) :
    (v.mapIdx f).get i = f i (v.get i) := by
  fin_cases i <;> rfl

theorem Eight.get_set {α : Type} (v : Eight α) (i j : Fin 8) (a : α) :
    (v.set i a).get j = if j = i then a else v.get j := by
  by_cases h : j = i
  · subst h; simp
  · simp [h]

theorem Eight.mem_numbers (i : Fin 8) : i ∈ Eight.numbers := by
  fin_cases i <;> decide

namespace Machine

/-! ## One lane replaced -/

@[simp] theorem State.setLane_pending (s : State) (n : LaneId) (l : Lane) :
    (s.setLane n l).pending = s.pending := rfl
@[simp] theorem State.setLane_time (s : State) (n : LaneId) (l : Lane) :
    (s.setLane n l).time = s.time := rfl
@[simp] theorem State.setLane_ctl (s : State) (n : LaneId) (l : Lane) :
    (s.setLane n l).ctl = s.ctl := rfl
@[simp] theorem State.setLane_table (s : State) (n : LaneId) (l : Lane) :
    (s.setLane n l).table = s.table := rfl
@[simp] theorem State.setLane_staging (s : State) (n : LaneId) (l : Lane) :
    (s.setLane n l).staging = s.staging := rfl
@[simp] theorem State.setLane_presult (s : State) (n : LaneId) (l : Lane) :
    (s.setLane n l).presult = s.presult := rfl
@[simp] theorem State.setLane_meters (s : State) (n : LaneId) (l : Lane) :
    (s.setLane n l).meters = s.meters := rfl
@[simp] theorem State.setLane_bus (s : State) (n : LaneId) (l : Lane) :
    (s.setLane n l).bus = s.bus := rfl
@[simp] theorem State.setLane_queue (s : State) (n : LaneId) (l : Lane) :
    (s.setLane n l).queue = s.queue := rfl

@[simp] theorem State.lane_setLane_self (s : State) (n : LaneId) (l : Lane) :
    (s.setLane n l).lane n = l := Eight.get_set_self _ _ _
@[simp] theorem State.lane_setLane_ne (s : State) {m n : LaneId} (l : Lane) (h : m ≠ n) :
    (s.setLane n l).lane m = s.lane m := Eight.get_set_ne _ _ h

theorem State.lane_setLane (s : State) (m n : LaneId) (l : Lane) :
    (s.setLane n l).lane m = if m = n then l else s.lane m := Eight.get_set _ _ _ _

/-! ## Updates of the other fields leave the lanes -/

@[simp] theorem State.lane_with_pending (s : State) (p : List Instr) (n : LaneId) :
    ({ s with pending := p } : State).lane n = s.lane n := rfl
@[simp] theorem State.lane_with_time (s : State) (t : Timebase) (n : LaneId) :
    ({ s with time := t } : State).lane n = s.lane n := rfl
@[simp] theorem State.lane_with_ctl (s : State) (c : Control) (n : LaneId) :
    ({ s with ctl := c } : State).lane n = s.lane n := rfl
@[simp] theorem State.lane_with_bus (s : State) (b : BusMaster) (n : LaneId) :
    ({ s with bus := b } : State).lane n = s.lane n := rfl
@[simp] theorem State.lane_with_queue (s : State) (q : EventQueue) (n : LaneId) :
    ({ s with queue := q } : State).lane n = s.lane n := rfl
@[simp] theorem State.lane_with_meters (s : State) (m : MeterPool) (n : LaneId) :
    ({ s with meters := m } : State).lane n = s.lane n := rfl
@[simp] theorem State.lane_with_staging (s : State) (p : ProfileFields) (n : LaneId) :
    ({ s with staging := p } : State).lane n = s.lane n := rfl
@[simp] theorem State.lane_with_presult (s : State) (p : PResult) (n : LaneId) :
    ({ s with presult := p } : State).lane n = s.lane n := rfl

/-! ## A post, several posts, and the outcome of a lane's step -/

@[simp] theorem State.post_pending (s : State) (e : Event) : (s.post e).pending = s.pending := rfl
@[simp] theorem State.post_time (s : State) (e : Event) : (s.post e).time = s.time := rfl
@[simp] theorem State.post_ctl (s : State) (e : Event) : (s.post e).ctl = s.ctl := rfl
@[simp] theorem State.post_lanes (s : State) (e : Event) : (s.post e).lanes = s.lanes := rfl
@[simp] theorem State.post_lane (s : State) (e : Event) (n : LaneId) :
    (s.post e).lane n = s.lane n := rfl
@[simp] theorem State.post_table (s : State) (e : Event) : (s.post e).table = s.table := rfl
@[simp] theorem State.post_staging (s : State) (e : Event) : (s.post e).staging = s.staging := rfl
@[simp] theorem State.post_presult (s : State) (e : Event) : (s.post e).presult = s.presult := rfl
@[simp] theorem State.post_meters (s : State) (e : Event) : (s.post e).meters = s.meters := rfl
@[simp] theorem State.post_bus (s : State) (e : Event) : (s.post e).bus = s.bus := rfl
@[simp] theorem State.post_queue (s : State) (e : Event) :
    (s.post e).queue = s.queue.post s.time.count e := rfl

@[simp] theorem State.postAll_nil (s : State) (n : LaneId) : s.postAll n [] = s := rfl
@[simp] theorem State.postAll_cons (s : State) (n : LaneId) (p : Post) (ps : List Post) :
    s.postAll n (p :: ps) = (s.post ⟨p.1, some n, p.2⟩).postAll n ps := rfl

/-- Posts touch nothing but the event queue. -/
theorem State.postAll_eq_queue (s : State) (n : LaneId) (ps : List Post) :
    s.postAll n ps = { s with queue := (s.postAll n ps).queue } := by
  induction ps generalizing s with
  | nil => rfl
  | cons p ps ih => rw [State.postAll_cons, ih]; rfl

@[simp] theorem State.postAll_pending (s : State) (n : LaneId) (ps : List Post) :
    (s.postAll n ps).pending = s.pending := by rw [State.postAll_eq_queue]
@[simp] theorem State.postAll_time (s : State) (n : LaneId) (ps : List Post) :
    (s.postAll n ps).time = s.time := by rw [State.postAll_eq_queue]
@[simp] theorem State.postAll_ctl (s : State) (n : LaneId) (ps : List Post) :
    (s.postAll n ps).ctl = s.ctl := by rw [State.postAll_eq_queue]
@[simp] theorem State.postAll_lanes (s : State) (n : LaneId) (ps : List Post) :
    (s.postAll n ps).lanes = s.lanes := by rw [State.postAll_eq_queue]
@[simp] theorem State.postAll_lane (s : State) (n m : LaneId) (ps : List Post) :
    (s.postAll n ps).lane m = s.lane m := by rw [State.postAll_eq_queue]; rfl
@[simp] theorem State.postAll_table (s : State) (n : LaneId) (ps : List Post) :
    (s.postAll n ps).table = s.table := by rw [State.postAll_eq_queue]
@[simp] theorem State.postAll_staging (s : State) (n : LaneId) (ps : List Post) :
    (s.postAll n ps).staging = s.staging := by rw [State.postAll_eq_queue]
@[simp] theorem State.postAll_presult (s : State) (n : LaneId) (ps : List Post) :
    (s.postAll n ps).presult = s.presult := by rw [State.postAll_eq_queue]
@[simp] theorem State.postAll_meters (s : State) (n : LaneId) (ps : List Post) :
    (s.postAll n ps).meters = s.meters := by rw [State.postAll_eq_queue]
@[simp] theorem State.postAll_bus (s : State) (n : LaneId) (ps : List Post) :
    (s.postAll n ps).bus = s.bus := by rw [State.postAll_eq_queue]

@[simp] theorem State.putLane_pending (s : State) (n : LaneId) (o : LaneOut) :
    (s.putLane n o).pending = s.pending := by simp [State.putLane]
@[simp] theorem State.putLane_time (s : State) (n : LaneId) (o : LaneOut) :
    (s.putLane n o).time = s.time := by simp [State.putLane]
@[simp] theorem State.putLane_ctl (s : State) (n : LaneId) (o : LaneOut) :
    (s.putLane n o).ctl = s.ctl := by simp [State.putLane]
@[simp] theorem State.putLane_table (s : State) (n : LaneId) (o : LaneOut) :
    (s.putLane n o).table = s.table := by simp [State.putLane]
@[simp] theorem State.putLane_staging (s : State) (n : LaneId) (o : LaneOut) :
    (s.putLane n o).staging = s.staging := by simp [State.putLane]
@[simp] theorem State.putLane_presult (s : State) (n : LaneId) (o : LaneOut) :
    (s.putLane n o).presult = s.presult := by simp [State.putLane]
@[simp] theorem State.putLane_meters (s : State) (n : LaneId) (o : LaneOut) :
    (s.putLane n o).meters = s.meters := by simp [State.putLane]
@[simp] theorem State.putLane_bus (s : State) (n : LaneId) (o : LaneOut) :
    (s.putLane n o).bus = s.bus := by simp [State.putLane]
@[simp] theorem State.putLane_lane_self (s : State) (n : LaneId) (o : LaneOut) :
    (s.putLane n o).lane n = o.lane := by simp [State.putLane]
@[simp] theorem State.putLane_lane_ne (s : State) {m n : LaneId} (o : LaneOut) (h : m ≠ n) :
    (s.putLane n o).lane m = s.lane m := by simp [State.putLane, h]

@[simp] theorem State.putLane_quiet (s : State) (n : LaneId) (l : Lane) :
    s.putLane n l.quiet = s.setLane n l := rfl

@[simp] theorem Lane.quiet_lane (l : Lane) : l.quiet.lane = l := rfl
@[simp] theorem Lane.quiet_posts (l : Lane) : l.quiet.posts = [] := rfl

@[simp] theorem State.putMeter_pending (s : State) (n : LaneId) (u : UnitId) (o : MeterOut) :
    (s.putMeter n u o).pending = s.pending := by simp [State.putMeter]
@[simp] theorem State.putMeter_time (s : State) (n : LaneId) (u : UnitId) (o : MeterOut) :
    (s.putMeter n u o).time = s.time := by simp [State.putMeter]
@[simp] theorem State.putMeter_ctl (s : State) (n : LaneId) (u : UnitId) (o : MeterOut) :
    (s.putMeter n u o).ctl = s.ctl := by simp [State.putMeter]
@[simp] theorem State.putMeter_table (s : State) (n : LaneId) (u : UnitId) (o : MeterOut) :
    (s.putMeter n u o).table = s.table := by simp [State.putMeter]
@[simp] theorem State.putMeter_staging (s : State) (n : LaneId) (u : UnitId) (o : MeterOut) :
    (s.putMeter n u o).staging = s.staging := by simp [State.putMeter]
@[simp] theorem State.putMeter_presult (s : State) (n : LaneId) (u : UnitId) (o : MeterOut) :
    (s.putMeter n u o).presult = s.presult := by simp [State.putMeter]
@[simp] theorem State.putMeter_meters (s : State) (n : LaneId) (u : UnitId) (o : MeterOut) :
    (s.putMeter n u o).meters = s.meters.set u o.unit := by simp [State.putMeter]
@[simp] theorem State.putMeter_bus (s : State) (n : LaneId) (u : UnitId) (o : MeterOut) :
    (s.putMeter n u o).bus = s.bus := by simp [State.putMeter]
@[simp] theorem State.putMeter_lane_self (s : State) (n : LaneId) (u : UnitId) (o : MeterOut) :
    (s.putMeter n u o).lane n = o.lane := by simp [State.putMeter]
@[simp] theorem State.putMeter_lane_ne (s : State) {m n : LaneId} (u : UnitId) (o : MeterOut)
    (h : m ≠ n) : (s.putMeter n u o).lane m = s.lane m := by simp [State.putMeter, h]

/-! ## The bus request -/

/-- Raising the bus request touches nothing but the bus state. -/
theorem State.raiseRequest_eq (s : State) :
    s.raiseRequest = { s with bus := s.raiseRequest.bus } := by
  unfold State.raiseRequest; split <;> rfl

@[simp] theorem State.raiseRequest_pending (s : State) : s.raiseRequest.pending = s.pending := by
  rw [State.raiseRequest_eq]
@[simp] theorem State.raiseRequest_time (s : State) : s.raiseRequest.time = s.time := by
  rw [State.raiseRequest_eq]
@[simp] theorem State.raiseRequest_ctl (s : State) : s.raiseRequest.ctl = s.ctl := by
  rw [State.raiseRequest_eq]
@[simp] theorem State.raiseRequest_lanes (s : State) : s.raiseRequest.lanes = s.lanes := by
  rw [State.raiseRequest_eq]
@[simp] theorem State.raiseRequest_lane (s : State) (n : LaneId) :
    s.raiseRequest.lane n = s.lane n := by rw [State.raiseRequest_eq]; rfl
@[simp] theorem State.raiseRequest_table (s : State) : s.raiseRequest.table = s.table := by
  rw [State.raiseRequest_eq]
@[simp] theorem State.raiseRequest_staging (s : State) : s.raiseRequest.staging = s.staging := by
  rw [State.raiseRequest_eq]
@[simp] theorem State.raiseRequest_presult (s : State) : s.raiseRequest.presult = s.presult := by
  rw [State.raiseRequest_eq]
@[simp] theorem State.raiseRequest_meters (s : State) : s.raiseRequest.meters = s.meters := by
  rw [State.raiseRequest_eq]
@[simp] theorem State.raiseRequest_queue (s : State) : s.raiseRequest.queue = s.queue := by
  rw [State.raiseRequest_eq]
@[simp] theorem State.raiseRequest_bus_ptr (s : State) :
    s.raiseRequest.bus.ptr = s.bus.ptr := by unfold State.raiseRequest; split <;> rfl
@[simp] theorem State.raiseRequest_bus_resplim (s : State) :
    s.raiseRequest.bus.resplim = s.bus.resplim := by unfold State.raiseRequest; split <;> rfl
@[simp] theorem State.raiseRequest_bus_fault (s : State) :
    s.raiseRequest.bus.fault = s.bus.fault := by unfold State.raiseRequest; split <;> rfl

/-- What raising the bus request can do (R151). -/
theorem State.raiseRequest_bus_cases (s : State) :
    s.raiseRequest.bus = s.bus ∨
      (s.bus.bstate = .idle ∧ s.ctl.resetPending = false ∧ s.anyRequest = true
        ∧ s.raiseRequest.bus = { s.bus with bstate := .requesting }) := by
  unfold State.raiseRequest
  split
  · next h => exact .inr ⟨h.1, h.2.1, h.2.2, rfl⟩
  · exact .inl rfl

/-- A burst in progress is untouched by raising the bus request. -/
@[simp] theorem State.raiseRequest_burst (s : State) :
    s.raiseRequest.bus.burst = s.bus.burst := by
  rcases s.raiseRequest_bus_cases with h | ⟨h0, -, -, h⟩
  · rw [h]
  · rw [h]; simp [BusMaster.burst, h0]

/-! ## Window writes -/

@[simp] theorem State.hostWrite_pending_reset (s : State) (f : State → State)
    (h : s.ctl.resetPending = true) : s.hostWrite f = s := by simp [State.hostWrite, h]
@[simp] theorem State.hostWrite_taken (s : State) (f : State → State)
    (h : s.ctl.resetPending = false) : s.hostWrite f = f s := by simp [State.hostWrite, h]

/-- A window write does nothing or what it says. -/
theorem State.hostWrite_cases (s : State) (f : State → State) :
    (s.ctl.resetPending = true ∧ s.hostWrite f = s) ∨
      (s.ctl.resetPending = false ∧ s.hostWrite f = f s) := by
  cases h : s.ctl.resetPending <;> simp [h]

/-! ## The meter pool -/

@[simp] theorem MeterPool.get_set_self (p : MeterPool) (u : UnitId) (m : MeterUnit) :
    (p.set u m).get u = m := by fin_cases u <;> rfl
@[simp] theorem MeterPool.get_set_ne (p : MeterPool) {u v : UnitId} (m : MeterUnit) (h : v ≠ u) :
    (p.set u m).get v = p.get v := by
  fin_cases u <;> fin_cases v <;> first | rfl | exact absurd rfl h

/-- The unit a lane holds is claimed by it. -/
theorem MeterPool.heldBy_some (p : MeterPool) (n : LaneId) (u : UnitId)
    (h : p.heldBy n = some u) : (p.get u).claim = some n := by
  unfold MeterPool.heldBy at h
  split at h
  · next h0 => cases h; exact h0
  · split at h
    · next h1 => cases h; exact h1
    · cases h

/-- The unit START claims is free (R71). -/
theorem MeterPool.lowestFree_some (p : MeterPool) (u : UnitId)
    (h : p.lowestFree = some u) : (p.get u).claim = none := by
  unfold MeterPool.lowestFree at h
  split at h
  · next h0 => cases h; exact h0
  · split at h
    · next h1 => cases h; exact h1
    · cases h

/-- A released pool holds the units of the other lanes as they were, and none of the lane. -/
theorem MeterPool.get_release (p : MeterPool) (n : LaneId) (u : UnitId) :
    (p.release n).get u = if (p.get u).claim = some n then .free else p.get u := by
  fin_cases u <;> rfl

end Machine

end Sys2Proof
end

