-- ==== Sys2Proof/Laws/Rings.lean ====
section
/-! SUPPORT. What the operations of the ring controller can do. -/

namespace Sys2Proof.Machine

/-! ## The request of a fetch (R136) -/

/-- The conditions of R136 on a lane. -/
abbrev Lane.wantsFetch (l : Lane) : Prop :=
  l.life.fetches = true ∧ l.ring.slot = .empty ∧ l.ring.ret = none
    ∧ l.ring.posted ≠ l.ring.consumed

/-- Requesting a fetch does so where the conditions hold, and nothing else. -/
theorem Lane.requestFetch_cases (l : Lane) :
    (l.wantsFetch ∧ l.requestFetch
        = { l with ring := { l.ring with slot := .fetching l.ring.nextIndex false [] } })
    ∨ (¬ l.wantsFetch ∧ l.requestFetch = l) := by
  unfold Lane.requestFetch
  by_cases h : l.wantsFetch
  · exact .inl ⟨h, if_pos h⟩
  · exact .inr ⟨h, if_neg h⟩

/-- Requesting a fetch touches the spare slot alone. -/
theorem Lane.requestFetch_eq (l : Lane) :
    l.requestFetch = { l with ring := { l.ring with slot := l.requestFetch.ring.slot } } := by
  rcases l.requestFetch_cases with ⟨_, h⟩ | ⟨_, h⟩ <;> rw [h]

@[simp] theorem Lane.requestFetch_regs (l : Lane) : l.requestFetch.regs = l.regs := by
  rw [l.requestFetch_eq]
@[simp] theorem Lane.requestFetch_fe (l : Lane) : l.requestFetch.fe = l.fe := by
  rw [l.requestFetch_eq]
@[simp] theorem Lane.requestFetch_life (l : Lane) : l.requestFetch.life = l.life := by
  rw [l.requestFetch_eq]
@[simp] theorem Lane.requestFetch_lresult (l : Lane) : l.requestFetch.lresult = l.lresult := by
  rw [l.requestFetch_eq]
@[simp] theorem Lane.requestFetch_writeIgnored (l : Lane) :
    l.requestFetch.writeIgnored = l.writeIgnored := by rw [l.requestFetch_eq]
@[simp] theorem Lane.requestFetch_seq (l : Lane) : l.requestFetch.seq = l.seq := by
  rw [l.requestFetch_eq]
@[simp] theorem Lane.requestFetch_dropped (l : Lane) : l.requestFetch.dropped = l.dropped := by
  rw [l.requestFetch_eq]
@[simp] theorem Lane.requestFetch_dropWhy (l : Lane) : l.requestFetch.dropWhy = l.dropWhy := by
  rw [l.requestFetch_eq]
@[simp] theorem Lane.requestFetch_skipCount (l : Lane) :
    l.requestFetch.skipCount = l.skipCount := by rw [l.requestFetch_eq]
@[simp] theorem Lane.requestFetch_cap (l : Lane) : l.requestFetch.cap = l.cap := by
  rw [l.requestFetch_eq]
@[simp] theorem Lane.requestFetch_matchers (l : Lane) : l.requestFetch.matchers = l.matchers := by
  rw [l.requestFetch_eq]
@[simp] theorem Lane.requestFetch_fifo (l : Lane) : l.requestFetch.fifo = l.fifo := by
  rw [l.requestFetch_eq]
@[simp] theorem Lane.requestFetch_result (l : Lane) : l.requestFetch.result = l.result := by
  rw [l.requestFetch_eq]
@[simp] theorem Lane.requestFetch_rep (l : Lane) : l.requestFetch.rep = l.rep := by
  rw [l.requestFetch_eq]
@[simp] theorem Lane.requestFetch_posted (l : Lane) :
    l.requestFetch.ring.posted = l.ring.posted := by rw [l.requestFetch_eq]
@[simp] theorem Lane.requestFetch_consumed (l : Lane) :
    l.requestFetch.ring.consumed = l.ring.consumed := by rw [l.requestFetch_eq]
@[simp] theorem Lane.requestFetch_rsize (l : Lane) :
    l.requestFetch.ring.rsize = l.ring.rsize := by rw [l.requestFetch_eq]
@[simp] theorem Lane.requestFetch_rbase (l : Lane) :
    l.requestFetch.ring.rbase = l.ring.rbase := by rw [l.requestFetch_eq]
@[simp] theorem Lane.requestFetch_ret (l : Lane) : l.requestFetch.ring.ret = l.ring.ret := by
  rw [l.requestFetch_eq]
@[simp] theorem Lane.requestFetch_flcount (l : Lane) :
    l.requestFetch.ring.flcount = l.ring.flcount := by rw [l.requestFetch_eq]

/-! ## The handing of the spare (R138, R139) -/

/-- What an engine that comes to bind can meet: a fitting spare, a spare that fails its check, or none. -/
theorem Ring.bind_cases (r : Ring) (minimum : Nat) :
    (∃ d, r.slot = .held d ∧ d.fits minimum ∧ r.bind minimum = (some d, { r with slot := .empty }))
    ∨ (∃ d, r.slot = .held d ∧ ¬ d.fits minimum
        ∧ r.bind minimum = (none, { r with slot := .empty, ret := some ⟨d, .badBuffer⟩ }))
    ∨ ((∀ d, r.slot ≠ .held d) ∧ r.bind minimum = (none, r)) := by
  unfold Ring.bind
  cases h : r.slot with
  | held d =>
    by_cases hf : d.fits minimum
    · exact .inl ⟨d, rfl, hf, if_pos hf⟩
    · exact .inr (.inl ⟨d, rfl, hf, by simp only [if_neg hf]⟩)
  | empty => exact .inr (.inr ⟨by simp, rfl⟩)
  | fetching i g ws => exact .inr (.inr ⟨by simp, rfl⟩)

/-- A dry ring is reported once (R143). -/
theorem Lane.reportDry_cases (l : Lane) :
    (l.ring.posted = l.ring.consumed ∧ l.ring.ringEmpty = false
        ∧ l.reportDry = ⟨{ l with ring := { l.ring with ringEmpty := true } },
            [(.ringEmpty, l.ring.consumed)]⟩)
    ∨ (¬ (l.ring.posted = l.ring.consumed ∧ l.ring.ringEmpty = false)
        ∧ l.reportDry = l.quiet) := by
  unfold Lane.reportDry
  by_cases h : l.ring.posted = l.ring.consumed ∧ l.ring.ringEmpty = false
  · exact .inl ⟨h.1, h.2, if_pos h⟩
  · exact .inr ⟨h, if_neg h⟩

/-! ## The end of work and of a flush -/

/-- Withdrawing a fetch not yet granted touches the slot alone (R136). -/
theorem Ring.withdraw_cases (r : Ring) :
    ((∃ i ws, r.slot = .fetching i false ws) ∧ r.withdraw = { r with slot := .empty })
    ∨ r.withdraw = r := by
  unfold Ring.withdraw
  split
  · next i ws h => exact .inl ⟨⟨i, ws, h⟩, rfl⟩
  · exact .inr rfl

/-- A lane that finishes is STOPPED with LANE_STOPPED posted; one that is not STOPPING is untouched
(R120). -/
theorem Lane.finishStopping_cases (l : Lane) :
    (∃ e, l.life = .stopping e
        ∧ l.finishStopping = ⟨l.becomeStopped, [(.laneStopped, e.value)]⟩)
    ∨ ((∀ e, l.life ≠ .stopping e) ∧ l.finishStopping = l.quiet) := by
  unfold Lane.finishStopping
  cases l.life with
  | stopping e => exact .inl ⟨e, rfl, rfl⟩
  | _ => exact .inr ⟨by simp, rfl⟩

/-- The end of a flush is judged by R145's condition. -/
theorem Lane.checkFlush_cases (l : Lane) :
    (l.life.isFlushing = true ∧ l.ring.slot = .empty ∧ l.ring.ret = none
        ∧ l.ring.posted = l.ring.consumed
        ∧ l.checkFlush = ⟨l.becomeStopped, [(.flushDone, l.ring.flcount)]⟩)
    ∨ (¬ (l.life.isFlushing = true ∧ l.ring.slot = .empty ∧ l.ring.ret = none
        ∧ l.ring.posted = l.ring.consumed) ∧ l.checkFlush = l.quiet) := by
  unfold Lane.checkFlush
  by_cases h : l.life.isFlushing = true ∧ l.ring.slot = .empty ∧ l.ring.ret = none
      ∧ l.ring.posted = l.ring.consumed
  · exact .inl ⟨h.1, h.2.1, h.2.2.1, h.2.2.2, if_pos h⟩
  · exact .inr ⟨h, if_neg h⟩

/-! ## Fetches -/

/-- A descriptor is read once four words have come (R134, R137). -/
theorem Lane.fetchedDesc_some (l : Lane) (d : Desc) (h : l.fetchedDesc = some d) :
    ∃ i g w0 w1 w2 w3, l.ring.slot = .fetching i g [w0, w1, w2, w3]
      ∧ d = Desc.ofWords i w0 w1 w2 w3 := by
  unfold Lane.fetchedDesc at h
  split at h
  · next i g w0 w1 w2 w3 hs => exact ⟨i, g, w0, w1, w2, w3, hs, (Option.some.inj h).symm⟩
  · cases h

/-- What the owner word of a return write-back does (R139, R144, R145). -/
theorem Lane.returnDone_cases (l : Lane) :
    (l.ring.ret = none ∧ l.returnDone = l.quiet)
    ∨ ∃ t, l.ring.ret = some t ∧
        ∃ l1, l1 = { l with ring := { l.ring with
            ret := none
            flcount := if t.status = ReturnStatus.flushed then l.ring.flcount + 1 else l.ring.flcount } }
          ∧ ((l.life = .flushing true ∧ l.returnDone = l1.endFlush)
            ∨ (l.life ≠ .flushing true ∧ l.returnDone = l1.requestFetch.checkFlush)) := by
  unfold Lane.returnDone
  cases h : l.ring.ret with
  | none => exact .inl ⟨rfl, rfl⟩
  | some t =>
    refine .inr ⟨t, rfl, _, rfl, ?_⟩
    by_cases hl : l.life = .flushing true
    · exact .inl ⟨hl, if_pos hl⟩
    · exact .inr ⟨hl, if_neg hl⟩

/-! ## Register writes -/

/-- What a write to POSTED does (R132). -/
theorem Lane.writePosted_cases (l : Lane) (w : Word) :
    ((l.ring.rsize < w - l.ring.consumed
          ∨ (w - l.ring.consumed = 0 ∧ l.ring.slot.isFetching = true))
        ∧ l.writePosted w = { l with ring := { l.ring with postRefused := true } }.quiet)
    ∨ (¬ (l.ring.rsize < w - l.ring.consumed
          ∨ (w - l.ring.consumed = 0 ∧ l.ring.slot.isFetching = true))
        ∧ l.writePosted w = { l with ring := { l.ring with
            posted := w, postRefused := false
            ringEmpty := if w = l.ring.consumed then l.ring.ringEmpty
                         else false } }.requestFetch.checkFlush) := by
  unfold Lane.writePosted
  by_cases h : l.ring.rsize < w - l.ring.consumed
      ∨ (w - l.ring.consumed = 0 ∧ l.ring.slot.isFetching = true)
  · exact .inl ⟨h, if_pos h⟩
  · exact .inr ⟨h, if_neg h⟩

/-- The ring controller is busy exactly while a fetch or a return write-back is on its way (R130). -/
theorem Ring.busy_iff (r : Ring) :
    r.busy = false ↔ r.slot.isFetching = false ∧ r.ret = none := by
  unfold Ring.busy Slot.isFetching
  cases r.slot <;> cases r.ret <;> simp

/-- A re-initialised ring controller (R130) whose slot was not FETCHING. -/
theorem Ring.reinit_eq (r : Ring) (h : r.slot.isFetching = false) :
    r.reinit = { r with posted := 0, consumed := 0, slot := .empty, ringEmpty := false,
                        postRefused := false } := by
  unfold Ring.reinit
  cases hs : r.slot <;> simp_all [Slot.isFetching]

end Sys2Proof.Machine
end

