-- ==== Sys2Proof/Laws/Engines.lean ====
section
/-! SUPPORT. What the shared operations of the three engines can do: the open-record list and the FIFO, the
closing and the beginning of a frame, the end of a measurement, and the end and the taking of a replay
record. -/

namespace Sys2Proof.Machine

/-! ## The open records and the end markers (2.6) -/

@[simp] theorem mapNewestRecord_concat (f : Record → Record) (rs : List Record) (r : Record) :
    mapNewestRecord f (rs ++ [r]) = rs ++ [f r] := by
  induction rs with
  | nil => rfl
  | cons a rest ih =>
    cases rest with
    | nil => rfl
    | cons b rest => simpa [mapNewestRecord] using ih

@[simp] theorem mapNewestRecord_length (f : Record → Record) (rs : List Record) :
    (mapNewestRecord f rs).length = rs.length := by
  rcases rs.eq_nil_or_concat with rfl | ⟨older, r, rfl⟩ <;> simp [mapNewestRecord]

/-- A change of the newest record that keeps what `g` reads keeps it on the whole list. -/
theorem mapNewestRecord_map {β : Type} (g : Record → β) (f : Record → Record)
    (h : ∀ r, g (f r) = g r) (rs : List Record) : (mapNewestRecord f rs).map g = rs.map g := by
  rcases rs.eq_nil_or_concat with rfl | ⟨older, r, rfl⟩ <;> simp [mapNewestRecord, h]

/-- Completing a drain changes a record's step alone. -/
theorem completeDrain_map {β : Type} (g : Record → β) (h : ∀ r : Record, g r.drainComplete = g r)
    (rs : List Record) : (completeDrain rs).map g = rs.map g := by
  induction rs with
  | nil => rfl
  | cons r rs ih => unfold completeDrain; split <;> simp [h, ih]

@[simp] theorem completeDrain_length (rs : List Record) :
    (completeDrain rs).length = rs.length := by
  simpa using congrArg List.length (completeDrain_map (fun _ => ()) (fun _ => rfl) rs)

/-- Removing end markers keeps every record in its place, and what `g` reads of it. -/
theorem dropMarkers_map {β : Type} (g : Record → β) (h : ∀ r : Record, g r.drainComplete = g r)
    (fifo : List FifoEntry) (rs : List Record) : (dropMarkers fifo rs).2.map g = rs.map g := by
  induction fifo generalizing rs with
  | nil => rfl
  | cons e fifo ih =>
    cases e with
    | interval v => rfl
    | endMarker => exact (ih _).trans (completeDrain_map g h rs)

/-- Removing end markers never lengthens the FIFO. -/
theorem dropMarkers_fifo_length (fifo : List FifoEntry) (rs : List Record) :
    (dropMarkers fifo rs).1.length ≤ fifo.length := by
  induction fifo generalizing rs with
  | nil => exact le_refl _
  | cons e fifo ih =>
    cases e with
    | interval v => exact le_refl _
    | endMarker => exact (ih _).trans (Nat.le_succ _)

/-- Settling the markers touches the FIFO and the records alone. -/
theorem Lane.settleMarkers_eq (l : Lane) :
    l.settleMarkers = { l with
      fifo := l.settleMarkers.fifo
      cap := { l.cap with records := l.settleMarkers.cap.records } } := rfl

@[simp] theorem Lane.settleMarkers_records_length (l : Lane) :
    l.settleMarkers.cap.records.length = l.cap.records.length := by
  simpa [Lane.settleMarkers] using congrArg List.length
    (dropMarkers_map (fun _ => ()) (fun _ => rfl) l.fifo l.cap.records)

/-- Changing the oldest record touches the record list alone. -/
theorem Lane.mapOldest_cases (l : Lane) (f : Record → Record) :
    (l.cap.records = [] ∧ l.mapOldest f = l)
    ∨ ∃ r rs, l.cap.records = r :: rs
        ∧ l.mapOldest f = { l with cap := { l.cap with records := f r :: rs } } := by
  unfold Lane.mapOldest
  split
  · next h => exact .inl ⟨h, rfl⟩
  · next r rs h => exact .inr ⟨r, rs, h, rfl⟩

/-! ## Frames (2.3 to 2.5) -/

/-- What a close does (R31): the frame is gone; a kept frame leaves its record closed, an end marker in the
FIFO and every matcher OFF; nothing but the assembler, the FIFO and the matchers is touched. -/
theorem Lane.closeFrame_cases (l : Lane) (table : Eight Profile) (f : Frame) (why : Close) :
    ∃ waiting, (f.disp ≠ .kept ∧ l.closeFrame table f why = { l with
        cap := { l.cap with cstate := why.nextState, frame := none, waiting := waiting } })
    ∨ (f.disp = .kept ∧ ∃ dec, l.closeFrame table f why = ({ l with
        cap := { cstate := why.nextState, frame := none, waiting := waiting,
                 records := mapNewestRecord (fun r => r.closeWith f why dec) l.cap.records }
        fifo := l.fifo ++ [FifoEntry.endMarker]
        matchers := .fill .off } : Lane).settleMarkers) := by
  refine ⟨l.cap.waiting && decide (why.nextState = .holdoff) && decide l.filteredIdle, ?_⟩
  unfold Lane.closeFrame
  by_cases h : f.disp = .kept
  · exact .inr ⟨h, _, if_pos h⟩
  · exact .inl ⟨h, if_neg h⟩

/-- Closing a frame touches the assembler, the FIFO and the matchers alone. -/
theorem Lane.closeFrame_eq (l : Lane) (table : Eight Profile) (f : Frame) (why : Close) :
    l.closeFrame table f why = { l with
      cap := (l.closeFrame table f why).cap
      fifo := (l.closeFrame table f why).fifo
      matchers := (l.closeFrame table f why).matchers } := by
  obtain ⟨w, ⟨_, h⟩ | ⟨_, dec, h⟩⟩ := l.closeFrame_cases table f why
  · rw [h]
  · rw [h]; rfl

/-- The assembler finishes a STOPPING capture lane with no frame and no record (R43). -/
theorem Lane.finishCapture_cases (l : Lane) :
    (∃ e, l.regs.lmode = .capture ∧ l.cap.frame = none ∧ l.cap.records = []
        ∧ l.life = .stopping e
        ∧ l.finishCapture
          = ⟨{ l with cap := { l.cap with cstate := .inactive, waiting := false } }.becomeStopped,
              [(.laneStopped, e.value)]⟩)
    ∨ l.finishCapture = l.quiet := by
  unfold Lane.finishCapture
  split
  · next h =>
    cases hl : l.life with
    | stopping e =>
      exact .inl ⟨e, h.1, h.2.1, h.2.2, rfl, by simp [Lane.finishStopping]⟩
    | _ => exact .inr rfl
  · exact .inr rfl

/-! ## Meter units (4.4) -/

/-- A result's disposition (R81), in the rule's order. -/
theorem Lane.disposeResult_cases (l : Lane) (u : MeterUnit) (unit : UnitId) (why : Close) :
    (0 < l.skipCount ∧ l.disposeResult u unit why = { l with
        seq := l.seq + 1, skipCount := l.skipCount - 1, dropped := l.dropped + 1,
        dropWhy := .skipped }.quiet)
    ∨ (l.skipCount = 0 ∧ l.result.isSome = true ∧ l.disposeResult u unit why = { l with
        seq := l.seq + 1, dropped := l.dropped + 1, dropWhy := .noSlot }.quiet)
    ∨ (∃ d ring, l.skipCount = 0 ∧ l.result = none
        ∧ l.ring.bind l.regs.meterMinimum = (some d, ring)
        ∧ l.disposeResult u unit why = { l with
            seq := l.seq + 1, ring := ring, dropped := 0,
            result := some (u.resultWith l.regs unit why d l.seq l.dropped) }.requestFetch.quiet)
    ∨ (∃ ring, l.skipCount = 0 ∧ l.result = none
        ∧ l.ring.bind l.regs.meterMinimum = (none, ring)
        ∧ l.disposeResult u unit why = { l with
            seq := l.seq + 1, ring := ring, dropped := l.dropped + 1,
            dropWhy := .noBuffer }.reportDry) := by
  unfold Lane.disposeResult
  dsimp only
  split
  · next h => exact .inl ⟨h, rfl⟩
  · next h =>
    have h0 : l.skipCount = 0 := by omega
    split
    · next hr => exact .inr (.inl ⟨h0, hr, rfl⟩)
    · next hr =>
      have hn : l.result = none := by simpa using hr
      split
      · next d ring hb => exact .inr (.inr (.inl ⟨d, ring, h0, hn, hb, rfl⟩))
      · next ring hb => exact .inr (.inr (.inr ⟨ring, h0, hn, hb, rfl⟩))

/-- A unit in M_RESULT with an empty result slot is released, and its lane finishes (R72, R84, R120). -/
theorem Lane.finishMeter_cases (l : Lane) (u : MeterUnit) :
    (u.state = .result ∧ l.result = none ∧ l.life = .running
        ∧ l.finishMeter u = ⟨l.becomeStopped, .free, [(.laneStopped, 3)]⟩)
    ∨ (u.state = .result ∧ l.result = none ∧ l.life ≠ .running
        ∧ l.finishMeter u = ⟨l.finishStopping.lane, .free, l.finishStopping.posts⟩)
    ∨ (¬ (u.state = .result ∧ l.result = none) ∧ l.finishMeter u = ⟨l, u, []⟩) := by
  unfold Lane.finishMeter
  split
  · next h =>
    cases hl : l.life with
    | running => exact .inl ⟨h.1, h.2, rfl, rfl⟩
    | _ => exact .inr (.inl ⟨h.1, h.2, by simp, rfl⟩)
  · next h => exact .inr (.inr ⟨h, rfl⟩)

/-! ## Replay (5.3, 5.8) -/

/-- What the end of a record does (R107). -/
theorem Lane.endRecord_cases (l : Lane) (status : DescStatus) :
    (l.rep.current = none ∧ l.endRecord status = l)
    ∨ ∃ c, l.rep.current = some c ∧ l.endRecord status = { l with
        fifo := [], rep := ⟨.rWait, none, some ⟨c.desc, c.kind, status, c.passes⟩⟩ } := by
  unfold Lane.endRecord
  split
  · next h => exact .inl ⟨h, rfl⟩
  · next c h => exact .inr ⟨c, h, rfl⟩

/-- A replay lane that is STOPPING finishes once it holds neither record (R111). -/
theorem Lane.finishReplay_cases (l : Lane) :
    (∃ e, l.regs.lmode = .replay ∧ l.rep.current = none ∧ l.rep.finished = none
        ∧ l.life = .stopping e
        ∧ l.finishReplay
          = ⟨{ l with rep := { l.rep with rstate := .inactive } }.becomeStopped,
              [(.laneStopped, e.value)]⟩)
    ∨ l.finishReplay = l.quiet := by
  unfold Lane.finishReplay
  split
  · next h =>
    cases hl : l.life with
    | stopping e =>
      exact .inl ⟨e, h.1, h.2.1, h.2.2, rfl, by simp [Lane.finishStopping]⟩
    | _ => exact .inr rfl
  · exact .inr rfl

/-- The engine takes a held spare under R93's conditions, and does nothing otherwise. -/
theorem Lane.takeSpare_cases (l : Lane) :
    (∃ d, l.ring.slot = .held d ∧ l.regs.lmode = .replay ∧ l.life = .running
        ∧ l.rep.rstate = .rWait ∧ l.rep.finished = none
        ∧ l.takeSpare
          = (Lane.takeRecord { l with ring := { l.ring with slot := .empty } } d).requestFetch)
    ∨ l.takeSpare = l := by
  unfold Lane.takeSpare
  split
  · next d hd =>
    split
    · next h => exact .inl ⟨d, hd, h.1, h.2.1, h.2.2.1, h.2.2.2, rfl⟩
    · exact .inr rfl
  · exact .inr rfl

/-- A record is taken into R_LOAD, or ends at once as MALFORMED for a buffer that fails (R94). -/
theorem Lane.takeRecord_cases (l : Lane) (d : Desc) :
    (d.fits Config.replayHeaderWords
        ∧ l.takeRecord d = { l with rep := ⟨.rLoad, some (.taken d), none⟩ })
    ∨ (¬ d.fits Config.replayHeaderWords
        ∧ l.takeRecord d = { l with
            fifo := [], rep := ⟨.rWait, none, some ⟨d, none, .malformed, 0⟩⟩ }) := by
  by_cases h : d.fits Config.replayHeaderWords
  · exact .inl ⟨h, if_pos h⟩
  · exact .inr ⟨h, if_neg h⟩

end Sys2Proof.Machine
end

