-- ==== Sys2Proof/Laws/Frames.lean ====
section
/-! SUPPORT. What the larger steps leave unchanged: every step of a lane, of the bus and of a lane command
keeps the timebase, device control, the profile table, the staging set, PRESULT and the commands that
wait, but where it completes a soft reset. -/

namespace Sys2Proof.Laws

open Sys2Proof.Machine Sys2Proof.Safety

theorem sharedKept_refl (s : State) : sharedKept s s := ⟨rfl, rfl, rfl, rfl, rfl, rfl⟩

theorem sharedKept_trans {s t u : State} (h : sharedKept s t) (k : sharedKept t u) :
    sharedKept s u :=
  ⟨k.1.trans h.1, k.2.1.trans h.2.1, k.2.2.1.trans h.2.2.1, k.2.2.2.1.trans h.2.2.2.1,
    k.2.2.2.2.1.trans h.2.2.2.2.1, k.2.2.2.2.2.trans h.2.2.2.2.2⟩

theorem setLane_shared (s : State) (n : LaneId) (l : Lane) : sharedKept s (s.setLane n l) :=
  ⟨rfl, rfl, rfl, rfl, rfl, rfl⟩

theorem post_shared (s : State) (e : Event) : sharedKept s (s.post e) :=
  ⟨rfl, rfl, rfl, rfl, rfl, rfl⟩

theorem putLane_shared (s : State) (n : LaneId) (o : LaneOut) : sharedKept s (s.putLane n o) := by
  simp [sharedKept]

theorem putMeter_shared (s : State) (n : LaneId) (u : UnitId) (o : MeterOut) :
    sharedKept s (s.putMeter n u o) := by
  simp [sharedKept]

theorem raiseRequest_shared (s : State) : sharedKept s s.raiseRequest := by
  simp [sharedKept]

theorem releaseBus_shared (s : State) : sharedKept s s.releaseBus :=
  ⟨rfl, rfl, rfl, rfl, rfl, rfl⟩

/-- The bus request raised after a step that keeps what is shared. -/
theorem shared_raise {s t : State} (h : sharedKept s t) : sharedKept s t.raiseRequest :=
  sharedKept_trans h (raiseRequest_shared t)

/-! ## The front end and the engines -/

theorem acceptEdge_shared (s : State) (n : LaneId) (c : Change) : sharedKept s (s.acceptEdge n c) := by
  unfold State.acceptEdge
  dsimp only
  split
  · split
    · exact putLane_shared _ _ _
    · split
      · exact putMeter_shared _ _ _ _
      · exact setLane_shared _ _ _
    · exact setLane_shared _ _ _
  · exact setLane_shared _ _ _

theorem stopEngine_shared (s : State) (n : LaneId) (l : Lane) : sharedKept s (s.stopEngine n l) := by
  unfold State.stopEngine
  split
  · exact putLane_shared _ _ _
  · split
    · exact putMeter_shared _ _ _ _
    · exact setLane_shared _ _ _
  · exact putLane_shared _ _ _
  · exact setLane_shared _ _ _

theorem abortEngine_shared (s : State) (n : LaneId) (l : Lane) :
    sharedKept s (s.abortEngine n l) := by
  unfold State.abortEngine
  split
  · exact putLane_shared _ _ _
  · split
    · exact putMeter_shared _ _ _ _
    · exact setLane_shared _ _ _
  · exact putLane_shared _ _ _
  · exact setLane_shared _ _ _

theorem beginEngine_shared (s : State) (n : LaneId) (l : Lane) :
    sharedKept s (s.beginEngine n l) := by
  unfold State.beginEngine
  split
  · exact setLane_shared _ _ _
  · split
    · exact ⟨rfl, rfl, rfl, rfl, rfl, rfl⟩
    · exact sharedKept_refl s
  · exact putLane_shared _ _ _
  · exact sharedKept_refl s

/-! ## Lane commands -/

theorem startLane_shared (s : State) (n : LaneId) : sharedKept s (s.startLane n) := by
  unfold State.startLane
  dsimp only
  split
  · exact shared_raise (beginEngine_shared _ _ _)
  · exact setLane_shared _ _ _

theorem stopLane_shared (s : State) (n : LaneId) : sharedKept s (s.stopLane n) := by
  unfold State.stopLane
  dsimp only
  split
  · exact shared_raise (stopEngine_shared _ _ _)
  · exact setLane_shared _ _ _
  · exact putLane_shared _ _ _
  · exact setLane_shared _ _ _
  · exact setLane_shared _ _ _

theorem abortLane_shared (s : State) (n : LaneId) : sharedKept s (s.abortLane n) := by
  unfold State.abortLane
  dsimp only
  split
  · exact shared_raise (abortEngine_shared _ _ _)
  · exact shared_raise (abortEngine_shared _ _ _)
  · exact setLane_shared _ _ _
  · exact setLane_shared _ _ _
  · exact shared_raise (putLane_shared _ _ _)
  · exact setLane_shared _ _ _

theorem resetLane_shared (s : State) (n : LaneId) (r : LResult) : sharedKept s (s.resetLane n r) :=
  ⟨rfl, rfl, rfl, rfl, rfl, rfl⟩

theorem laneCommand_shared (s : State) (n : LaneId) (code : BitVec 4) (arg : BitVec 12) :
    sharedKept s (s.laneCommand n code arg) := by
  unfold State.laneCommand
  split
  · exact startLane_shared _ _
  · split
    · exact stopLane_shared _ _
    · split
      · exact abortLane_shared _ _
      · split
        · exact setLane_shared _ _ _
        · split
          · exact shared_raise (putLane_shared _ _ _)
          · split
            · exact setLane_shared _ _ _
            · split
              · exact resetLane_shared _ _ _
              · exact setLane_shared _ _ _

/-! ## Registers of a lane's block -/

theorem lockedWrite_shared (s : State) (n : LaneId) (f : Lane → Lane) :
    sharedKept s (s.lockedWrite n f) := by
  unfold State.lockedWrite; dsimp only; split <;> exact setLane_shared _ _ _

theorem ringWrite_shared (s : State) (n : LaneId) (f : Ring → Ring) :
    sharedKept s (s.ringWrite n f) := by
  unfold State.ringWrite; dsimp only; split <;> exact setLane_shared _ _ _

theorem writePostedReg_shared (s : State) (n : LaneId) (w : Word) :
    sharedKept s (s.writePostedReg n w) :=
  shared_raise (putLane_shared _ _ _)

theorem writeLaneReg_shared (s : State) (n : LaneId) (r : Nat) (w : Word) :
    sharedKept s (s.writeLaneReg n r w) := by
  unfold State.writeLaneReg
  split
  all_goals first
    | exact lockedWrite_shared _ _ _
    | exact ringWrite_shared _ _ _
    | exact writePostedReg_shared _ _ _
    | exact laneCommand_shared _ _ _ _
    | exact sharedKept_refl s

/-! ## The bus -/

theorem grant_shared (s : State) : sharedKept s s.grant := by
  unfold State.grant
  split
  · split
    · exact releaseBus_shared s
    · split
      · exact releaseBus_shared s
      · unfold State.beginBurst
        dsimp only
        split <;> exact ⟨rfl, rfl, rfl, rfl, rfl, rfl⟩
  · exact sharedKept_refl s

theorem faultLane_shared (s : State) (n : LaneId) (c : FaultCause) :
    sharedKept s (s.faultLane n c) := ⟨rfl, rfl, rfl, rfl, rfl, rfl⟩

theorem fetchDone_shared (s : State) (n : LaneId) : sharedKept s (s.fetchDone n) := by
  unfold State.fetchDone
  dsimp only
  split
  · exact sharedKept_refl s
  · split
    · exact setLane_shared _ _ _
    · exact faultLane_shared _ _ _

theorem writeBackDone_shared (s : State) (n : LaneId) (forRing : Bool) :
    sharedKept s (s.writeBackDone n forRing) := by
  unfold State.writeBackDone
  dsimp only
  split
  · exact putLane_shared _ _ _
  · split
    · exact putLane_shared _ _ _
    · split
      · exact putMeter_shared _ _ _ _
      · exact sharedKept_refl s
    · exact putLane_shared _ _ _
    · exact sharedKept_refl s

theorem burstDone_shared (s : State) (b : Burst) : sharedKept s (s.burstDone b) := by
  unfold State.burstDone
  dsimp only
  split
  · exact fetchDone_shared _ _
  · exact setLane_shared _ _ _
  · exact setLane_shared _ _ _
  · exact writeBackDone_shared _ _ _
  · exact setLane_shared _ _ _
  · exact sharedKept_refl s
  · exact sharedKept_refl s

/-- What an acknowledge can do to what is shared: with no soft reset pending, nothing; with one pending
it completes the reset. -/
theorem acknowledge_shared (s : State) (data : Word) (h : s.ctl.resetPending = false) :
    sharedKept s (s.acknowledge data) := by
  unfold State.acknowledge
  split
  · rw [if_neg (by simp [h])]
    split
    · exact shared_raise (releaseBus_shared s)
    · dsimp only
      split
      · exact shared_raise (sharedKept_trans
          (sharedKept_trans (setLane_shared _ _ _) (releaseBus_shared _)) (burstDone_shared _ _))
      · exact ⟨rfl, rfl, rfl, rfl, rfl, rfl⟩
  · exact sharedKept_refl s

/-- As `acknowledge_shared`, for a word cycle that fails. -/
theorem failCycle_shared (s : State) (e : Bool) (h : s.ctl.resetPending = false) :
    sharedKept s (s.failCycle e) := by
  unfold State.failCycle
  split
  · rw [if_neg (by simp [h])]
    dsimp only
    split
    · exact shared_raise ⟨rfl, rfl, rfl, rfl, rfl, rfl⟩
    · exact shared_raise (sharedKept_trans ⟨rfl, rfl, rfl, rfl, rfl, rfl⟩
        (faultLane_shared _ _ _))
  · exact sharedKept_refl s

/-- While a soft reset is pending the end of a word cycle is the completion of the reset (R179). -/
theorem acknowledge_pending (s : State) (data : Word) (h : s.ctl.resetPending = true) :
    s.acknowledge data = s ∨ s.acknowledge data = s.completeSoftReset := by
  unfold State.acknowledge
  split
  · exact .inr (if_pos h)
  · exact .inl rfl

theorem failCycle_pending (s : State) (e : Bool) (h : s.ctl.resetPending = true) :
    s.failCycle e = s ∨ s.failCycle e = s.completeSoftReset := by
  unfold State.failCycle
  split
  · exact .inr (if_pos h)
  · exact .inl rfl

/-! ## The timed happenings of a lane -/

/-- The happenings of a lane that the passing of time or its pin brings. -/
def isTimedLane : Instr → Bool
  | .transition _ | .edgeAccepted _ | .waitPointReached _ | .gapPointReached _ | .markPointReached _
  | .tlimitExpiry _ | .mtimeoutExpiry _ | .firstIntervalBegin _ | .intervalEnd _
  | .trailingGapEnd _ | .carrierPhase _ => true
  | _ => false

/-- A timed happening of a lane keeps everything shared. -/
theorem timed_shared (c : Instr) (s t : State) (hc : isTimedLane c = true)
    (h : exec c s = .next t) : sharedKept s t := by
  cases c <;> cases hc
  all_goals
    simp only [exec, execTransition, execEdgeAccepted, execWaitPointReached, execGapPointReached,
      execMarkPointReached, execTlimitExpiry, execMtimeoutExpiry, execFirstIntervalBegin,
      execIntervalEnd, execTrailingGapEnd, execCarrierPhase] at h
    (repeat' split at h) <;> cases h <;>
    first
    | exact shared_raise (putLane_shared _ _ _)
    | exact shared_raise (acceptEdge_shared _ _ _)
    | exact shared_raise (setLane_shared _ _ _)
    | exact setLane_shared _ _ _
    | exact shared_raise (putMeter_shared _ _ _ _)
    | exact sharedKept_refl _

/-! ## The other lanes -/

theorem othersKept_refl (n : LaneId) (s : State) : othersKept n s s := fun _ _ => rfl

theorem othersKept_trans {n : LaneId} {s t u : State} (h : othersKept n s t)
    (k : othersKept n t u) : othersKept n s u := fun m hm => (k m hm).trans (h m hm)

theorem setLane_others (s : State) (n : LaneId) (l : Lane) : othersKept n s (s.setLane n l) :=
  fun _ hm => State.lane_setLane_ne s l hm

theorem putLane_others (s : State) (n : LaneId) (o : LaneOut) : othersKept n s (s.putLane n o) :=
  fun _ hm => State.putLane_lane_ne s o hm

theorem putMeter_others (s : State) (n : LaneId) (u : UnitId) (o : MeterOut) :
    othersKept n s (s.putMeter n u o) := fun _ hm => State.putMeter_lane_ne s u o hm

/-- The bus request raised after a step that keeps the other lanes. -/
theorem others_raise {n : LaneId} {s t : State} (h : othersKept n s t) :
    othersKept n s t.raiseRequest := fun m hm => (State.raiseRequest_lane t m).trans (h m hm)

theorem acceptEdge_others (s : State) (n : LaneId) (c : Change) :
    othersKept n s (s.acceptEdge n c) := by
  unfold State.acceptEdge
  dsimp only
  split
  · split
    · exact putLane_others _ _ _
    · split
      · exact putMeter_others _ _ _ _
      · exact setLane_others _ _ _
    · exact setLane_others _ _ _
  · exact setLane_others _ _ _

theorem stopEngine_others (s : State) (n : LaneId) (l : Lane) :
    othersKept n s (s.stopEngine n l) := by
  unfold State.stopEngine
  split
  · exact putLane_others _ _ _
  · split
    · exact putMeter_others _ _ _ _
    · exact setLane_others _ _ _
  · exact putLane_others _ _ _
  · exact setLane_others _ _ _

theorem abortEngine_others (s : State) (n : LaneId) (l : Lane) :
    othersKept n s (s.abortEngine n l) := by
  unfold State.abortEngine
  split
  · exact putLane_others _ _ _
  · split
    · exact putMeter_others _ _ _ _
    · exact setLane_others _ _ _
  · exact putLane_others _ _ _
  · exact setLane_others _ _ _

theorem beginEngine_others (s : State) (n : LaneId) (l : Lane) :
    othersKept n s (s.beginEngine n l) := by
  unfold State.beginEngine
  split
  · exact setLane_others _ _ _
  · split
    · exact setLane_others { s with meters := _ } n _
    · exact othersKept_refl n s
  · exact putLane_others _ _ _
  · exact othersKept_refl n s

theorem faultLane_others (s : State) (n : LaneId) (c : FaultCause) :
    othersKept n s (s.faultLane n c) := setLane_others { s with meters := _ } n _

theorem resetLane_others (s : State) (n : LaneId) (r : LResult) :
    othersKept n s (s.resetLane n r) := setLane_others { s with meters := _, bus := _ } n _

theorem fetchDone_others (s : State) (n : LaneId) : othersKept n s (s.fetchDone n) := by
  unfold State.fetchDone
  dsimp only
  split
  · exact othersKept_refl n s
  · split
    · exact setLane_others _ _ _
    · exact faultLane_others _ _ _

theorem writeBackDone_others (s : State) (n : LaneId) (forRing : Bool) :
    othersKept n s (s.writeBackDone n forRing) := by
  unfold State.writeBackDone
  dsimp only
  split
  · exact putLane_others _ _ _
  · split
    · exact putLane_others _ _ _
    · split
      · exact putMeter_others _ _ _ _
      · exact othersKept_refl n s
    · exact putLane_others _ _ _
    · exact othersKept_refl n s

theorem burstDone_others (s : State) (b : Burst) : othersKept b.lane s (s.burstDone b) := by
  unfold State.burstDone
  dsimp only
  split
  · exact fetchDone_others _ _
  · exact setLane_others _ _ _
  · exact setLane_others _ _ _
  · exact writeBackDone_others _ _ _
  · exact setLane_others _ _ _
  · exact othersKept_refl _ s
  · exact othersKept_refl _ s

/-! ## The bus -/

theorem busKept_refl (s : State) : busKept s s := .inl rfl

/-- The bus request raised after a step that leaves the bus master alone. -/
theorem busKept_raise {s t : State} (h : t.bus = s.bus) : busKept s t.raiseRequest := by
  rcases t.raiseRequest_bus_cases with k | ⟨k0, -, -, k⟩
  · exact .inl (k.trans h)
  · exact .inr ⟨h ▸ k0, by rw [k, h]⟩

/-! ## The word cycle in progress -/

/-- What an acknowledge does (R154, R159, R179): nothing with no cycle in progress; the end of a pending
soft reset; nothing but the release of the bus for a lane that has been reset; the end of the burst at its
last word; or the next word cycle. -/
theorem acknowledge_cases (s : State) (data : Word) :
    (s.bus.burst = none ∧ s.acknowledge data = s)
    ∨ ∃ b, s.bus.bstate = .owned b ∧
      ((s.ctl.resetPending = true ∧ s.acknowledge data = s.completeSoftReset)
      ∨ (s.ctl.resetPending = false ∧ b.orphan = true
          ∧ s.acknowledge data = s.releaseBus.raiseRequest)
      ∨ (s.ctl.resetPending = false ∧ b.orphan = false ∧ b.remaining ≤ 1
          ∧ s.acknowledge data
            = (((s.setLane b.lane ((s.lane b.lane).takeWord b.purpose data)).releaseBus.burstDone
                b).raiseRequest))
      ∨ (s.ctl.resetPending = false ∧ b.orphan = false ∧ 1 < b.remaining
          ∧ s.acknowledge data
            = (s.setLane b.lane ((s.lane b.lane).takeWord b.purpose data)).nextCycle b)) := by
  unfold State.acknowledge
  cases hb : s.bus.bstate with
  | idle => exact .inl ⟨by simp [BusMaster.burst, hb], rfl⟩
  | requesting => exact .inl ⟨by simp [BusMaster.burst, hb], rfl⟩
  | owned b =>
    refine .inr ⟨b, rfl, ?_⟩
    cases hp : s.ctl.resetPending
    · cases ho : b.orphan
      · by_cases hr : b.remaining ≤ 1
        · exact .inr (.inr (.inl ⟨rfl, rfl, hr, by simp [ho, hr]⟩))
        · exact .inr (.inr (.inr ⟨rfl, rfl, by omega, by simp [ho, hr]⟩))
      · exact .inr (.inl ⟨rfl, rfl, by simp [ho]⟩)
    · exact .inl ⟨rfl, by simp⟩

/-- What the failure of a word cycle does (R156, R159, R179). -/
theorem failCycle_cases (s : State) (e : Bool) :
    (s.bus.burst = none ∧ s.failCycle e = s)
    ∨ ∃ b, s.bus.bstate = .owned b ∧
      ((s.ctl.resetPending = true ∧ s.failCycle e = s.completeSoftReset)
      ∨ (s.ctl.resetPending = false ∧ ∃ s1,
          s1 = { s with bus := { s.bus with
            bstate := .idle, fault := s.bus.fault.capture b e } }
          ∧ ((b.orphan = true ∧ s.failCycle e = s1.raiseRequest)
            ∨ (b.orphan = false ∧ s.failCycle e
                = (s1.faultLane b.lane
                    (if e then .errorReply else .noResponse)).raiseRequest)))) := by
  unfold State.failCycle
  cases hb : s.bus.bstate with
  | idle => exact .inl ⟨by simp [BusMaster.burst, hb], rfl⟩
  | requesting => exact .inl ⟨by simp [BusMaster.burst, hb], rfl⟩
  | owned b =>
    refine .inr ⟨b, rfl, ?_⟩
    cases hp : s.ctl.resetPending
    · refine .inr ⟨rfl, _, rfl, ?_⟩
      cases ho : b.orphan
      · exact .inr ⟨rfl, by simp [ho]; rfl⟩
      · exact .inl ⟨rfl, by simp [ho]; rfl⟩
    · exact .inl ⟨rfl, by simp⟩

/-- What a report of NO_RESPONSE does (R155): the failure of the word cycle once its limit has passed, and
nothing before it or with none in progress. -/
theorem execNoResponse_cases (s : State) :
    (s.bus.burst = none ∧ execNoResponse s = .next s)
    ∨ ∃ b, s.bus.bstate = .owned b ∧
      ((b.cycle.elapsed < b.cycle.limit.toNat ∧ execNoResponse s = .next s)
      ∨ (b.cycle.limit.toNat ≤ b.cycle.elapsed
          ∧ execNoResponse s = .next (s.failCycle false))) := by
  unfold execNoResponse BusMaster.responseDue BusMaster.burst
  cases hb : s.bus.bstate with
  | idle => exact .inl ⟨rfl, by simp⟩
  | requesting => exact .inl ⟨rfl, by simp⟩
  | owned b =>
    refine .inr ⟨b, rfl, ?_⟩
    by_cases h : b.cycle.limit.toNat ≤ b.cycle.elapsed
    · exact .inr ⟨h, by simp [h]⟩
    · exact .inl ⟨by omega, by simp [h]⟩

/-- What a grant does (R151, R152, R160). -/
theorem grant_cases (s : State) :
    (s.bus.bstate ≠ .requesting ∧ s.grant = s)
    ∨ (s.bus.bstate = .requesting ∧ s.choose = none ∧ s.grant = s.releaseBus)
    ∨ (∃ n, s.bus.bstate = .requesting ∧ s.choose = some n ∧ s.request n = none
        ∧ s.grant = s.releaseBus)
    ∨ (∃ n q, s.bus.bstate = .requesting ∧ s.choose = some n ∧ s.request n = some q
        ∧ s.grant = s.beginBurst n q) := by
  unfold State.grant
  cases hb : s.bus.bstate with
  | idle => exact .inl ⟨by simp, rfl⟩
  | owned b => exact .inl ⟨by simp, rfl⟩
  | requesting =>
    cases hc : s.choose with
    | none => exact .inr (.inl ⟨rfl, rfl, rfl⟩)
    | some n =>
      cases hq : s.request n with
      | none => exact .inr (.inr (.inl ⟨n, rfl, rfl, hq, by simp [hq]⟩))
      | some q => exact .inr (.inr (.inr ⟨n, q, rfl, rfl, hq, by simp [hq]⟩))

end Sys2Proof.Laws
end

