-- ==== Sys2Proof/Laws/PerInstr.lean ====
section
/-! SUPPORT. A law of every command, made command by command: which window write a command spells (R182),
and that a row of its own stands behind the offset exactly where the command is not the row for any other
register write. -/

namespace Sys2Proof.Laws

open Sys2Proof.Machine Sys2Proof.Safety

/-- The word of a PCMD write: the request in [3:0], INDEX in [10:8] (R182). -/
def pcmdWord (i : ProfileIx) (code : BitVec 4) : Word :=
  (BitVec.ofNat 3 i.val).zeroExtend 16 <<< 8 ||| code.zeroExtend 16

/-- The byte offset and the word of the window write that the command stands for (R182); none for a
happening that no window write makes, and for a byte write, which carries no word. -/
def spelling : Instr → Option (BitVec 10 × Word)
  | .deviceReset => none
  | .baseTick => none
  | .transition _ => none
  | .edgeAccepted _ => none
  | .waitPointReached _ => none
  | .gapPointReached _ => none
  | .markPointReached _ => none
  | .tlimitExpiry _ => none
  | .mtimeoutExpiry _ => none
  | .holdoffExpiry => none
  | .firstIntervalBegin _ => none
  | .intervalEnd _ => none
  | .trailingGapEnd _ => none
  | .carrierPhase _ => none
  | .busGrant => none
  | .wordAck _ => none
  | .fetchComplete _ => none
  | .writeBack => none
  | .errorReply => none
  | .noResponse => none
  | .softResetComplete => none
  | .start n a => some (laneOffset n 0x20, a ++ (1 : BitVec 4))
  | .stop n a => some (laneOffset n 0x20, a ++ (2 : BitVec 4))
  | .abort n a => some (laneOffset n 0x20, a ++ (3 : BitVec 4))
  | .skip n a => some (laneOffset n 0x20, a ++ (4 : BitVec 4))
  | .flush n a => some (laneOffset n 0x20, a ++ (5 : BitVec 4))
  | .recover n a => some (laneOffset n 0x20, a ++ (6 : BitVec 4))
  | .reset n a => some (laneOffset n 0x20, a ++ (7 : BitVec 4))
  | .lcmdBadCommand n c a => some (laneOffset n 0x20, a ++ c)
  | .snap => some (0x00C, 1)
  | .note => some (0x00C, 2)
  | .softReset => some (0x00C, 3)
  | .gcmdUnknown c => some (0x00C, c.zeroExtend 16)
  | .commit i => some (0x02C, pcmdWord i 1)
  | .clear i => some (0x02C, pcmdWord i 2)
  | .load i => some (0x02C, pcmdWord i 3)
  | .pcmdBadCommand c i => some (0x02C, pcmdWord i c)
  | .controlWrite w => some (0x004, w)
  | .prescWrite w => some (0x008, w)
  | .resplimWrite w => some (0x00A, w)
  | .irqctlWrite w => some (0x028, w)
  | .irqholdWrite w => some (0x02A, w)
  | .evqpop w => some (0x026, w)
  | .fclr w => some (0x01E, w)
  | .postedWrite n w => some (laneOffset n 0x1C, w)
  | .rbaseWrite n h w => some (laneOffset n (if h then 0x18 else 0x16), w)
  | .rsizeWrite n w => some (laneOffset n 0x1A, w)
  | .lcfgWrite n w => some (laneOffset n 0x00, w)
  | .registerWrite .word o w => some (o, w)
  | .registerWrite .byte _ _ => none

/-- Each lane register with a row of its own lies at an offset that has a row, in every lane's block. -/
theorem hasRow_laneOffset :
    ∀ r ∈ laneRowOffsets, ∀ n : LaneId, hasRow (wordOffset (laneOffset n r)) = true := by
  decide

/-- A well-formed command's window write lies at a register with a row of its own exactly where the command
is not the row for any other register write. -/
def RowOffsets.Statement (i : Instr) : Prop :=
  i.wellFormed = true → ∀ o v, spelling i = some (o, v) →
    (hasRow (wordOffset o) = true ↔ ∀ z p w, i ≠ .registerWrite z p w)

theorem RowOffsets.deviceReset : RowOffsets.Statement (.deviceReset) := fun _ _ _ h => nomatch h

theorem RowOffsets.baseTick : RowOffsets.Statement (.baseTick) := fun _ _ _ h => nomatch h

theorem RowOffsets.transition (n : LaneId) : RowOffsets.Statement (.transition n) := fun _ _ _ h => nomatch h

theorem RowOffsets.edgeAccepted (n : LaneId) : RowOffsets.Statement (.edgeAccepted n) := fun _ _ _ h => nomatch h

theorem RowOffsets.waitPointReached (n : LaneId) : RowOffsets.Statement (.waitPointReached n) := fun _ _ _ h => nomatch h

theorem RowOffsets.gapPointReached (n : LaneId) : RowOffsets.Statement (.gapPointReached n) := fun _ _ _ h => nomatch h

theorem RowOffsets.markPointReached (n : LaneId) : RowOffsets.Statement (.markPointReached n) := fun _ _ _ h => nomatch h

theorem RowOffsets.tlimitExpiry (n : LaneId) : RowOffsets.Statement (.tlimitExpiry n) := fun _ _ _ h => nomatch h

theorem RowOffsets.mtimeoutExpiry (n : LaneId) : RowOffsets.Statement (.mtimeoutExpiry n) := fun _ _ _ h => nomatch h

theorem RowOffsets.holdoffExpiry : RowOffsets.Statement (.holdoffExpiry) := fun _ _ _ h => nomatch h

theorem RowOffsets.firstIntervalBegin (n : LaneId) : RowOffsets.Statement (.firstIntervalBegin n) := fun _ _ _ h => nomatch h

theorem RowOffsets.intervalEnd (n : LaneId) : RowOffsets.Statement (.intervalEnd n) := fun _ _ _ h => nomatch h

theorem RowOffsets.trailingGapEnd (n : LaneId) : RowOffsets.Statement (.trailingGapEnd n) := fun _ _ _ h => nomatch h

theorem RowOffsets.carrierPhase (n : LaneId) : RowOffsets.Statement (.carrierPhase n) := fun _ _ _ h => nomatch h

theorem RowOffsets.busGrant : RowOffsets.Statement (.busGrant) := fun _ _ _ h => nomatch h

theorem RowOffsets.wordAck (d : Word) : RowOffsets.Statement (.wordAck d) := fun _ _ _ h => nomatch h

theorem RowOffsets.fetchComplete (d : Word) : RowOffsets.Statement (.fetchComplete d) := fun _ _ _ h => nomatch h

theorem RowOffsets.writeBack : RowOffsets.Statement (.writeBack) := fun _ _ _ h => nomatch h

theorem RowOffsets.errorReply : RowOffsets.Statement (.errorReply) := fun _ _ _ h => nomatch h

theorem RowOffsets.noResponse : RowOffsets.Statement (.noResponse) := fun _ _ _ h => nomatch h

theorem RowOffsets.softResetComplete : RowOffsets.Statement (.softResetComplete) := fun _ _ _ h => nomatch h

theorem RowOffsets.start (n : LaneId) (a : BitVec 12) : RowOffsets.Statement (.start n a) := by
  intro _ o v h
  cases h
  exact ⟨fun _ _ _ _ k => (nomatch k), fun _ => hasRow_laneOffset _ (by decide) n⟩

theorem RowOffsets.stop (n : LaneId) (a : BitVec 12) : RowOffsets.Statement (.stop n a) := by
  intro _ o v h
  cases h
  exact ⟨fun _ _ _ _ k => (nomatch k), fun _ => hasRow_laneOffset _ (by decide) n⟩

theorem RowOffsets.abort (n : LaneId) (a : BitVec 12) : RowOffsets.Statement (.abort n a) := by
  intro _ o v h
  cases h
  exact ⟨fun _ _ _ _ k => (nomatch k), fun _ => hasRow_laneOffset _ (by decide) n⟩

theorem RowOffsets.skip (n : LaneId) (a : BitVec 12) : RowOffsets.Statement (.skip n a) := by
  intro _ o v h
  cases h
  exact ⟨fun _ _ _ _ k => (nomatch k), fun _ => hasRow_laneOffset _ (by decide) n⟩

theorem RowOffsets.flush (n : LaneId) (a : BitVec 12) : RowOffsets.Statement (.flush n a) := by
  intro _ o v h
  cases h
  exact ⟨fun _ _ _ _ k => (nomatch k), fun _ => hasRow_laneOffset _ (by decide) n⟩

theorem RowOffsets.recover (n : LaneId) (a : BitVec 12) : RowOffsets.Statement (.recover n a) := by
  intro _ o v h
  cases h
  exact ⟨fun _ _ _ _ k => (nomatch k), fun _ => hasRow_laneOffset _ (by decide) n⟩

theorem RowOffsets.reset (n : LaneId) (a : BitVec 12) : RowOffsets.Statement (.reset n a) := by
  intro _ o v h
  cases h
  exact ⟨fun _ _ _ _ k => (nomatch k), fun _ => hasRow_laneOffset _ (by decide) n⟩

theorem RowOffsets.lcmdBadCommand (n : LaneId) (c : BitVec 4) (a : BitVec 12) : RowOffsets.Statement (.lcmdBadCommand n c a) := by
  intro _ o v h
  cases h
  exact ⟨fun _ _ _ _ k => (nomatch k), fun _ => hasRow_laneOffset _ (by decide) n⟩

theorem RowOffsets.snap : RowOffsets.Statement (.snap) := by
  intro _ o v h
  cases h
  exact ⟨fun _ _ _ _ k => (nomatch k), fun _ => rfl⟩

theorem RowOffsets.note : RowOffsets.Statement (.note) := by
  intro _ o v h
  cases h
  exact ⟨fun _ _ _ _ k => (nomatch k), fun _ => rfl⟩

theorem RowOffsets.softReset : RowOffsets.Statement (.softReset) := by
  intro _ o v h
  cases h
  exact ⟨fun _ _ _ _ k => (nomatch k), fun _ => rfl⟩

theorem RowOffsets.gcmdUnknown (c : BitVec 4) : RowOffsets.Statement (.gcmdUnknown c) := by
  intro _ o v h
  cases h
  exact ⟨fun _ _ _ _ k => (nomatch k), fun _ => rfl⟩

theorem RowOffsets.commit (i : ProfileIx) : RowOffsets.Statement (.commit i) := by
  intro _ o v h
  cases h
  exact ⟨fun _ _ _ _ k => (nomatch k), fun _ => rfl⟩

theorem RowOffsets.clear (i : ProfileIx) : RowOffsets.Statement (.clear i) := by
  intro _ o v h
  cases h
  exact ⟨fun _ _ _ _ k => (nomatch k), fun _ => rfl⟩

theorem RowOffsets.load (i : ProfileIx) : RowOffsets.Statement (.load i) := by
  intro _ o v h
  cases h
  exact ⟨fun _ _ _ _ k => (nomatch k), fun _ => rfl⟩

theorem RowOffsets.pcmdBadCommand (c : BitVec 4) (i : ProfileIx) : RowOffsets.Statement (.pcmdBadCommand c i) := by
  intro _ o v h
  cases h
  exact ⟨fun _ _ _ _ k => (nomatch k), fun _ => rfl⟩

theorem RowOffsets.controlWrite (w : Word) : RowOffsets.Statement (.controlWrite w) := by
  intro _ o v h
  cases h
  exact ⟨fun _ _ _ _ k => (nomatch k), fun _ => rfl⟩

theorem RowOffsets.prescWrite (w : Word) : RowOffsets.Statement (.prescWrite w) := by
  intro _ o v h
  cases h
  exact ⟨fun _ _ _ _ k => (nomatch k), fun _ => rfl⟩

theorem RowOffsets.resplimWrite (w : Word) : RowOffsets.Statement (.resplimWrite w) := by
  intro _ o v h
  cases h
  exact ⟨fun _ _ _ _ k => (nomatch k), fun _ => rfl⟩

theorem RowOffsets.irqctlWrite (w : Word) : RowOffsets.Statement (.irqctlWrite w) := by
  intro _ o v h
  cases h
  exact ⟨fun _ _ _ _ k => (nomatch k), fun _ => rfl⟩

theorem RowOffsets.irqholdWrite (w : Word) : RowOffsets.Statement (.irqholdWrite w) := by
  intro _ o v h
  cases h
  exact ⟨fun _ _ _ _ k => (nomatch k), fun _ => rfl⟩

theorem RowOffsets.evqpop (w : Word) : RowOffsets.Statement (.evqpop w) := by
  intro _ o v h
  cases h
  exact ⟨fun _ _ _ _ k => (nomatch k), fun _ => rfl⟩

theorem RowOffsets.fclr (w : Word) : RowOffsets.Statement (.fclr w) := by
  intro _ o v h
  cases h
  exact ⟨fun _ _ _ _ k => (nomatch k), fun _ => rfl⟩

theorem RowOffsets.postedWrite (n : LaneId) (w : Word) : RowOffsets.Statement (.postedWrite n w) := by
  intro _ o v h
  cases h
  exact ⟨fun _ _ _ _ k => (nomatch k), fun _ => hasRow_laneOffset _ (by decide) n⟩

theorem RowOffsets.rbaseWrite (n : LaneId) (h : Bool) (w : Word) : RowOffsets.Statement (.rbaseWrite n h w) := by
  intro _ o v k
  cases k
  exact ⟨fun _ _ _ _ k => (nomatch k), fun _ => hasRow_laneOffset _ (by cases h <;> decide) n⟩

theorem RowOffsets.rsizeWrite (n : LaneId) (w : Word) : RowOffsets.Statement (.rsizeWrite n w) := by
  intro _ o v h
  cases h
  exact ⟨fun _ _ _ _ k => (nomatch k), fun _ => hasRow_laneOffset _ (by decide) n⟩

theorem RowOffsets.lcfgWrite (n : LaneId) (w : Word) : RowOffsets.Statement (.lcfgWrite n w) := by
  intro _ o v h
  cases h
  exact ⟨fun _ _ _ _ k => (nomatch k), fun _ => hasRow_laneOffset _ (by decide) n⟩

theorem RowOffsets.registerWrite (z : AccessSize) (o : BitVec 10) (w : Word) : RowOffsets.Statement (.registerWrite z o w) := by
  intro hw o' v h
  cases z with
  | byte => cases h
  | word =>
    cases h
    refine ⟨fun hr => ?_, fun hn => absurd rfl (hn _ _ _)⟩
    have hf : hasRow (wordOffset o) = false := by simpa [Instr.wellFormed, wordOffset] using hw
    rw [hf] at hr
    cases hr

end Sys2Proof.Laws
end

