-- ==== Sys2Proof/Laws/Queue.lean ====
section
/-! SUPPORT. What the operations of the event queue can do: a post, a removal, and a run of posts. -/

namespace Sys2Proof.Machine

/-! ## The newest entry -/

@[simp] theorem mapNewest_concat (f : Event → Event) (es : List Event) (e : Event) :
    mapNewest f (es ++ [e]) = es ++ [f e] := by
  induction es with
  | nil => rfl
  | cons a rest ih =>
    cases rest with
    | nil => rfl
    | cons b rest => simpa [mapNewest] using ih

@[simp] theorem mapNewest_length (f : Event → Event) (es : List Event) :
    (mapNewest f es).length = es.length := by
  rcases es.eq_nil_or_concat with rfl | ⟨older, e, rfl⟩ <;> simp [mapNewest]

@[simp] theorem newestIsOverflow_concat (es : List Event) (e : Event) :
    newestIsOverflow (es ++ [e]) = decide (e.kind = .overflow) := by
  simp [newestIsOverflow]

/-- A raised entry differs in its count alone, which is at least 1 where it was below 65535. -/
@[simp] theorem Event.raise_kind (e : Event) : e.raise.kind = e.kind := by
  unfold Event.raise; split <;> rfl
@[simp] theorem Event.raise_lane (e : Event) : e.raise.lane = e.lane := by
  unfold Event.raise; split <;> rfl

/-! ## A post -/

/-- What a post can do to the entries (R163). -/
theorem postEntries_cases (es : List Event) (e : Event) :
    (es.length ≤ 30 ∧ postEntries es e = es ++ [e])
    ∨ (31 ≤ es.length ∧ newestIsOverflow es = true ∧ postEntries es e = mapNewest Event.raise es)
    ∨ (es.length = 31 ∧ newestIsOverflow es = false
        ∧ postEntries es e = es ++ [Event.overflowOne])
    ∨ (32 ≤ es.length ∧ newestIsOverflow es = false ∧ postEntries es e = es) := by
  unfold postEntries
  by_cases h : es.length ≤ 30
  · exact .inl ⟨h, if_pos h⟩
  · rw [if_neg h]
    cases hn : newestIsOverflow es
    · by_cases h31 : es.length = 31
      · exact .inr (.inr (.inl ⟨h31, rfl, by simp [h31]⟩))
      · exact .inr (.inr (.inr ⟨by omega, rfl, by simp [h31]⟩))
    · exact .inr (.inl ⟨by omega, rfl, by simp⟩)

/-- A post leaves an entry behind. -/
theorem postEntries_ne_nil (es : List Event) (e : Event) : postEntries es e ≠ [] := by
  intro h
  have hl := congrArg List.length h
  rcases postEntries_cases es e with ⟨_, k⟩ | ⟨h31, _, k⟩ | ⟨_, _, k⟩ | ⟨h32, _, k⟩ <;>
    rw [k] at hl <;> simp at hl
  · simp [hl] at h31
  · simp [hl] at h32

@[simp] theorem EventQueue.post_entries (q : EventQueue) (now : Stamp) (e : Event) :
    (q.post now e).entries = postEntries q.entries e := rfl
@[simp] theorem EventQueue.post_ie (q : EventQueue) (now : Stamp) (e : Event) :
    (q.post now e).ie = q.ie := rfl
@[simp] theorem EventQueue.post_ithresh (q : EventQueue) (now : Stamp) (e : Event) :
    (q.post now e).ithresh = q.ithresh := rfl
@[simp] theorem EventQueue.post_ihold (q : EventQueue) (now : Stamp) (e : Event) :
    (q.post now e).ihold = q.ihold := rfl
@[simp] theorem EventQueue.post_expired (q : EventQueue) (now : Stamp) (e : Event) :
    (q.post now e).expired = q.expired := rfl

/-- A post starts the timer of an empty queue and no other (R171). -/
theorem EventQueue.post_timer (q : EventQueue) (now : Stamp) (e : Event) :
    (q.post now e).timer = if q.entries = [] then q.startTimer now else q.timer := rfl

/-! ## A removal -/

/-- What a removal can do (R167, R171, R172). -/
theorem EventQueue.pop_cases (q : EventQueue) (now : Stamp) :
    (q.entries = [] ∧ q.pop now = q)
    ∨ (∃ e, q.entries = [e]
        ∧ q.pop now = { q with entries := [], timer := none, expired := false })
    ∨ (∃ e f rest, q.entries = e :: f :: rest
        ∧ q.pop now = { q with entries := f :: rest, timer := q.startTimer now }) := by
  unfold EventQueue.pop
  split
  · next h => exact .inl ⟨h, rfl⟩
  · next e h => exact .inr (.inl ⟨e, h, rfl⟩)
  · next e rest hne h =>
    cases rest with
    | nil => exact (hne rfl).elim
    | cons f rest => exact .inr (.inr ⟨e, f, rest, h, rfl⟩)

/-! ## Runs of posts -/

/-- The queue after the posts of a lane's step: each is taken in turn (R164). -/
theorem State.postAll_queue (s : State) (n : LaneId) (ps : List Post) :
    (s.postAll n ps).queue
      = ps.foldl (fun q p => q.post s.time.count ⟨p.1, some n, p.2⟩) s.queue := by
  induction ps generalizing s with
  | nil => rfl
  | cons p ps ih => rw [State.postAll_cons, ih]; rfl

@[simp] theorem State.putLane_queue (s : State) (n : LaneId) (o : LaneOut) :
    (s.putLane n o).queue
      = o.posts.foldl (fun q p => q.post s.time.count ⟨p.1, some n, p.2⟩) s.queue :=
  State.postAll_queue _ _ _

@[simp] theorem State.putMeter_queue (s : State) (n : LaneId) (u : UnitId) (o : MeterOut) :
    (s.putMeter n u o).queue
      = o.posts.foldl (fun q p => q.post s.time.count ⟨p.1, some n, p.2⟩) s.queue :=
  State.postAll_queue _ _ _

/-- What every post keeps of a queue, a run of posts keeps. -/
theorem foldl_post_keeps (P : EventQueue → Prop) (now : Stamp) (n : LaneId) (ps : List Post)
    (step : ∀ q, P q → ∀ p ∈ ps, P (q.post now ⟨p.1, some n, p.2⟩)) (q : EventQueue) (h : P q) :
    P (ps.foldl (fun q p => q.post now ⟨p.1, some n, p.2⟩) q) := by
  induction ps generalizing q with
  | nil => exact h
  | cons p ps ih =>
    exact ih (fun q hq p' hp => step q hq p' (List.mem_cons_of_mem _ hp)) _
      (step q h p List.mem_cons_self)

end Sys2Proof.Machine
end

