-- ==== Sys2Proof/Tests/Slice0.lean ====
section
/-! SUPPORT. The model's own tests: ill-formed terms refused, small steps of each command with results
taken from the manual's rules and worked sequences, and for every statement with hypotheses a concrete
state that meets them. -/

namespace Sys2Proof.Machine

/-! ## Small changes of a state -/

/-- The timebase count set. -/
def State.atCount (s : State) (count : Stamp) : State := { s with time := { s.time with count := count } }

/-- `s` with lane 0 replaced. -/
def State.lane0 (s : State) (l : Lane) : State := s.setLane 0 l

/-- A word cycle in progress. -/
def State.owned (s : State) (b : Burst) : State := { s with bus := { s.bus with bstate := .owned b } }

/-- A soft reset is pending. -/
def State.resetting (s : State) : State := { s with ctl := { s.ctl with resetPending := true } }

end Sys2Proof.Machine

namespace Sys2Proof.Tests

open Sys2Proof.Machine Sys2Proof.Safety

/-! ## Small states -/

/-- The state a command leaves. -/
def run (c : Instr) (s : State) : State :=
  match exec c s with
  | .next t => t
  | _ => s

/-- The part with ENABLE 1. -/
def on : State := { State.reset with ctl := { State.reset.ctl with enable := true } }

/-- A lane as a reset leaves it. -/
def idleLane : Lane := .afterReset .low 0 .none

/-- A burst of lane 0 in its word cycle `done`. -/
def burst (p : Purpose) (done remaining : Nat) : Burst :=
  { lane := 0, purpose := p, forRing := false, base := 0x1000, done := done,
    remaining := remaining, orphan := false, cycle := ⟨0x1000, 0, 0, 1024⟩ }

/-- A burst of lane 0 whose word cycle has lasted `elapsed` of its 1024 core clocks. -/
def late (p : Purpose) (elapsed : Nat) : Burst :=
  { burst p 2 6 with cycle := ⟨0x1000, 0, elapsed, 1024⟩ }

/-- A descriptor the part holds. -/
def desc (length : BitVec 12) : Desc := ⟨2, .device, 0x2000, length⟩

/-- A ring of four entries with `posted` posted and none taken. -/
def ring (posted : Word) (slot : Slot) : Ring :=
  { Ring.reset with rbase := 0x1000, rsize := 4, posted := posted, slot := slot }

/-- The settings of a capture lane: LGAP 5, MAXMARK 9. -/
def capRegs : LaneRegs :=
  { LaneRegs.reset with lmode := .capture, lgap := 5, maxmark := 9 }

/-- The record of the open frame. -/
def openRecord : Record := .open (desc 14) 6 0 0 0

/-- An open frame whose interval in progress began at count 10. -/
def openFrame (inMark : Bool) : Frame :=
  { start := 10, intervalStart := 10, inMark := inMark, total := 2, stored := 2, glitches := 0,
    seq := 0, disp := .kept }

/-- A capture lane at work in sub-state `c`, the line last moved at count 10. -/
def capLane (c : CState) : Lane :=
  { idleLane with
    regs := capRegs, life := .running, fe := ⟨.low, .low, none, ⟨10, 10⟩⟩,
    cap := { Assembler.reset with cstate := c }, ring := ring 3 (.held (desc 14)) }

/-- A capture lane with an open kept frame. -/
def frameLane (inMark : Bool) : Lane :=
  { capLane .inFrame with
    seq := 1, fifo := [.interval 3, .interval 4],
    cap := { cstate := .inFrame, frame := some (openFrame inMark), waiting := false,
             records := [openRecord] } }

/-- A meter lane at work, PERIOD of two items, SINGLE. -/
def meterLane : Lane :=
  { idleLane with
    regs := { LaneRegs.reset with lmode := .meter, mcount := 2, mtimeout := 1 }
    life := .running, ring := ring 1 (.held (desc 9)) }

/-- The unit of that lane, with item 1 begun at count 100. -/
def countingUnit : MeterUnit :=
  { MeterUnit.free with
    claim := some 0, state := .counting, startStamp := 100, itemStart := 100, inItem := true,
    timeout := some 100 }

/-- The part with the meter lane at work. -/
def metering : State := { on.lane0 meterLane with meters := ⟨countingUnit, .free⟩ }

/-- The current record of a replay lane: an INTERVALS record of three intervals, played once. -/
def playRecord : ReplayRecord :=
  { ReplayRecord.taken (desc 20) with kind := some .intervals, gap := 7, count := 3, fetched := 3 }

/-- A replay lane in sub-state `r` with current record `c`. -/
def replayLane (r : RState) (c : ReplayRecord) : Lane :=
  { idleLane with
    regs := { LaneRegs.reset with lmode := .replay, div := 1, cper := 3, chigh := 1 }
    life := .running, fifo := [.interval 4, .interval 5]
    rep := ⟨r, some c, none⟩, ring := ring 0 .empty }

/-- The result the meter lane of the tests writes back. -/
def shownResult : MeterResult := countingUnit.resultWith meterLane.regs 0 .complete (desc 9) 0 0

/-- A record that waits for its write-back, and a replay lane that holds it. -/
def doneRecord : FinishedRecord := ⟨desc 20, some .intervals, .ok, 1⟩
def doneLane : Lane := { replayLane .rWait playRecord with rep := ⟨.rWait, none, some doneRecord⟩ }

/-- The profile of the Frame Capture chapter's worked frame. -/
def workedProfile : ProfileFields :=
  { hasLead := true, hasRepeat := false, msbFirst := false, bitMin := 3, bitMax := 3,
    leadMark := ⟨80, 90, 100⟩, leadSpace := ⟨40, 45, 50⟩, repeatSpace := .zero,
    zeroMark := ⟨4, 6, 8⟩, zeroSpace := ⟨4, 6, 8⟩, oneMark := ⟨4, 6, 8⟩,
    oneSpace := ⟨15, 18, 21⟩, stopMark := ⟨4, 6, 8⟩ }

/-- The part with that profile staged. -/
def staged : State := { on with staging := workedProfile }

/-! ## Ill-formed terms are refused -/

theorem test_illFormed_lcmd : (Instr.lcmdBadCommand 0 7 0).wellFormed = false := by decide
theorem test_illFormed_gcmd : (Instr.gcmdUnknown 3).wellFormed = false := by decide
theorem test_illFormed_pcmd : (Instr.pcmdBadCommand 1 0).wellFormed = false := by decide
theorem test_illFormed_global : (Instr.registerWrite .word 0x005 0).wellFormed = false := by decide
theorem test_illFormed_lane : (Instr.registerWrite .word 0x2DC 0).wellFormed = false := by decide
theorem test_wellFormed_edges :
    (Instr.lcmdBadCommand 0 8 0).wellFormed = true ∧ (Instr.gcmdUnknown 4).wellFormed = true
      ∧ (Instr.pcmdBadCommand 0 0).wellFormed = true
      ∧ (Instr.registerWrite .word 0x102 0).wellFormed = true
      ∧ (Instr.registerWrite .byte 0x004 0).wellFormed = true := by decide

/-! ## Resets and time -/

theorem test_deviceReset (s : State) : (run .deviceReset s).time.prescale = 1
    ∧ (run .deviceReset s).bus.resplim = 1024 ∧ (run .deviceReset s).ctl.garg = 0 :=
  ⟨rfl, rfl, rfl⟩

/-- From 0xFFFFFFFF the count wraps to 0 (R1). -/
theorem test_baseTick_wraps :
    (run .baseTick (on.atCount 0xFFFFFFFF)).time.count = 0 := by decide

/-- While ENABLE is 0 the count holds (R1). -/
theorem test_baseTick_disabled :
    (run .baseTick (State.reset.atCount 7)).time.count = 7 := by decide

theorem test_softResetComplete :
    (run .softResetComplete (on.resetting)).ctl.resetPending = false
      ∧ (run .softResetComplete on.resetting).ctl.enable = true := by decide

/-- With a word cycle in progress a soft reset waits for its end (R179). -/
theorem test_softReset_waits :
    (run .softReset (on.owned (burst .fill 2 6))).ctl.resetPending = true
      ∧ (run .softReset on).ctl.resetPending = false := by decide

/-! ## The lane front end -/

/-- A transition stamps both forms: with DIV 3 the lane-tick stamp of 100 is 12 (R5, R8). -/
theorem test_transition_stamps :
    ((run (.transition 0) ((on.atCount 100).lane0
      { idleLane with regs := { capRegs with div := 3 } })).lane 0).fe.change
      = some ⟨⟨100, 12⟩, .high⟩ := by decide

/-- A reversal absorbs the pending change (R11). -/
theorem test_transition_absorbs :
    ((run (.transition 0) (run (.transition 0) (on.lane0 { idleLane with regs := capRegs }))).lane
      0).fe.change = none := by decide

/-- The edge carries the stamp of the transition, not of its acceptance, and is accepted MINW lane ticks
after it (R10). -/
theorem test_edgeAccepted :
    let l := { idleLane with
      regs := { capRegs with minw := 3 }
      fe := ⟨.high, .low, some ⟨⟨102, 102⟩, .high⟩, ⟨0, 0⟩⟩ }
    ((run (.edgeAccepted 0) ((on.atCount 105).lane0 l)).lane 0).fe.lastEdge = ⟨102, 102⟩
      ∧ ((run (.edgeAccepted 0) ((on.atCount 104).lane0 l)).lane 0).fe.filtered = .low := by decide

/-- LCFG stores its fields and resynchronises to the pin (R7). -/
theorem test_lcfgWrite :
    ((run (.lcfgWrite 0 0x0531) ((on.atCount 64).lane0 { idleLane with line := .high })).lane 0).fe
      = ⟨.high, .high, none, ⟨64, 8⟩⟩ := by decide

/-! ## Frame capture -/

theorem test_waitPointReached :
    ((run (.waitPointReached 0) ((on.atCount 15).lane0 (capLane .arming))).lane 0).cap.cstate
      = .listen := by decide

theorem test_waitPointReached_notYet :
    ((run (.waitPointReached 0) ((on.atCount 14).lane0 (capLane .arming))).lane 0).cap.cstate
      = .arming := by decide

/-- An active-going edge in LISTEN begins a frame, which takes the sequence number and the spare (R21,
R25): a buffer of 14 words holds 6 intervals beside the header with PMASK 0. -/
theorem test_frameStart :
    let t := run (.edgeAccepted 0) ((on.atCount 21).lane0 { capLane .listen with
      fe := ⟨.high, .low, some ⟨⟨20, 20⟩, .high⟩, ⟨10, 10⟩⟩ })
    (t.lane 0).cap.cstate = .inFrame ∧ (t.lane 0).seq = 1
      ∧ (t.lane 0).cap.records.map Record.capacity = [6]
      ∧ (t.lane 0).ring.slot = .fetching 0 false [] := by decide

/-- A frame whose space has lasted LGAP lane ticks closes as GAP into LISTEN (R32). -/
theorem test_gapPointReached :
    let t := run (.gapPointReached 0) ((on.atCount 15).lane0 (frameLane false))
    (t.lane 0).cap.cstate = .listen ∧ (t.lane 0).cap.records.map Record.close = [some .gap]
      ∧ (t.lane 0).fifo.length = 3 := by decide

/-- The longest mark is counted as MAXMARK and stored before the STUCK close (R33). -/
theorem test_markPointReached :
    let t := run (.markPointReached 0) ((on.atCount 19).lane0 (frameLane true))
    (t.lane 0).cap.cstate = .holdoff ∧ (t.lane 0).cap.records.map Record.total = [3]
      ∧ (t.lane 0).fifo = [.interval 3, .interval 4, .interval 9, .endMarker] := by decide

/-- TLIMIT 1 closes a frame 1024 base ticks after its start as LONG (R34). -/
theorem test_tlimitExpiry :
    let l := frameLane true
    let t := run (.tlimitExpiry 0) ((on.atCount 1034).lane0 { l with
      regs := { l.regs with tlimit := 1 } })
    (t.lane 0).cap.records.map Record.close = [some .long] := by decide

/-! ## Meter units -/

/-- A timed-out measurement ends as TIMEOUT, and its result binds the spare (R79, R81). -/
theorem test_mtimeoutExpiry :
    let t := run (.mtimeoutExpiry 0) (metering.atCount 1124)
    (t.lane 0).result.map MeterResult.close = some .timeout
      ∧ (t.meters.get 0).state = .result := by decide

/-- The second period ends the measurement: two items of 50 base ticks, total 100 (R76, R78). -/
theorem test_meterEdge_completes :
    let u := { countingUnit with items := 1, total := 50, itemStart := 150,
                                 minItem := 50, maxItem := 50 }
    let o := meterLane.meterEdge u 0 202 true ⟨200, 200⟩
    o.lane.result.map (fun r => (r.items, r.total)) = some (2, 100)
      ∧ o.unit.state = .result := by decide

/-! ## Replay -/

/-- Interval v lasts v × 2^DIV base ticks (R99). -/
theorem test_firstIntervalBegin :
    let t := run (.firstIntervalBegin 0)
      (on.lane0 (replayLane .rPlay { playRecord with tickSeen := true }))
    ((t.lane 0).rep.current.bind ReplayRecord.playing) = some ⟨true, 4, 8⟩
      ∧ (t.lane 0).fifo = [.interval 5] := by decide

/-- The last interval of the pass ends: the trailing gap of 7 lane ticks begins (R102). -/
theorem test_intervalEnd_last :
    let t := run (.intervalEnd 0) (on.lane0 (replayLane .rPlay
      { playRecord with played := 3, playing := some ⟨true, 4, 0⟩ }))
    (t.lane 0).rep.rstate = .rTrail
      ∧ (t.lane 0).rep.current.map ReplayRecord.gapLeft = some 14 := by decide

/-- An interval ends with the FIFO empty and intervals unplayed: UNDERRUN (R104). -/
theorem test_intervalEnd_underrun :
    let t := run (.intervalEnd 0) (on.lane0 { replayLane .rPlay
      { playRecord with played := 1, playing := some ⟨true, 4, 0⟩ } with fifo := [] })
    (t.lane 0).rep.finished.map FinishedRecord.status = some .underrun := by decide

/-- The trailing gap of the last pass ends the record as OK with the passes completed (R102, R107). -/
theorem test_trailingGapEnd :
    let t := run (.trailingGapEnd 0) (on.lane0 (replayLane .rTrail playRecord))
    (t.lane 0).rep = ⟨.rWait, none, some ⟨desc 20, some .intervals, .ok, 1⟩⟩ := by decide

/-- With CPER 3 and CHIGH 1 the carrier goes to idle at phase 1 (R101). -/
theorem test_carrierPhase :
    let t := run (.carrierPhase 0) (on.lane0 (replayLane .rPlay { playRecord with
      carrier := true, playing := some ⟨true, 4, 7⟩, carrierPhase := 1, carrierActive := true }))
    (t.lane 0).rep.current.map ReplayRecord.carrierActive = some false := by decide

/-- The encoder's DATA form of the worked sequence of 5.11: three bits of 5, low bit first. -/
theorem test_dataIntervals :
    workedProfile.dataIntervals 3 5 = [90, 45, 6, 18, 6, 6, 6, 18, 6] := by decide

/-- A matcher reads the worked frame as three bits of value 5 (R58, R60). -/
theorem test_matcher :
    (matcherAfter workedProfile [91, 44, 6, 19, 5, 7, 6, 17, 6]).outcome workedProfile 2
      = some ⟨2, false, 3, 5⟩ := by decide

/-! ## The system bus -/

/-- The three lanes of 8.6 at grant A: no request is URGENT and the search begins at lane 2, so lane 3
fills 8 words and the pointer moves to 4. -/
def grantA : State :=
  let drain : Lane := { frameLane true with fifo := List.replicate 10 (.interval 4) }
  let fill : Lane := { replayLane .rPlay { playRecord with count := 21, fetched := 8 } with
    fifo := List.replicate 12 (.interval 4) }
  let fetch : Lane := { meterLane with ring := ring 1 (.fetching 0 false []) }
  let s := ((on.setLane 1 drain).setLane 3 fill).setLane 6 fetch
  { s with bus := { s.bus with bstate := .requesting, ptr := 2 } }

theorem test_busGrant :
    let t := run .busGrant grantA
    t.bus.burst.map (fun b => (b.lane, b.purpose, b.remaining)) = some (3, .fill, 8)
      ∧ t.bus.ptr = 4 := by decide

/-- At grant B lane 1 is URGENT with 24 entries, though the search begins at 4. -/
theorem test_busGrant_urgent :
    let s := grantA.setLane 1 { frameLane true with fifo := List.replicate 24 (.interval 4) }
    let t := run .busGrant { s with bus := { s.bus with ptr := 4 } }
    t.bus.burst.map (fun b => (b.lane, b.purpose)) = some (1, .drain) ∧ t.bus.ptr = 2 := by decide

/-- The 16th word of a fill leaves R_FILL (R97, 5.12). -/
theorem test_wordAck_fill :
    let l := { replayLane .rFill { playRecord with count := 21, fetched := 15 } with
      fifo := List.replicate 15 (.interval 4) }
    let t := run (.wordAck 9) ((on.lane0 l).owned (burst .fill 7 1))
    (t.lane 0).rep.rstate = .rPlay ∧ (t.lane 0).fifo.length = 16 := by decide

/-- The fourth word of a fetch makes the spare held and advances CONSUMED (R137). -/
theorem test_fetchComplete :
    let l := { capLane .listen with ring := ring 3 (.fetching 0 true [0x8000, 0x2000, 0x0012]) }
    let t := run (.fetchComplete 0xF00E) ((on.lane0 l).owned (burst .fetch 3 1))
    (t.lane 0).ring.slot = .held ⟨0, .device, 0x122000, 14⟩ ∧ (t.lane 0).ring.consumed = 1 := by
  decide

/-- A descriptor the host still owns faults the lane and is not taken (R137). -/
theorem test_fetchComplete_host :
    let l := { capLane .listen with ring := ring 3 (.fetching 0 true [0x0000, 0x2000, 0x0012]) }
    let t := run (.fetchComplete 0xF00E) ((on.lane0 l).owned (burst .fetch 3 1))
    (t.lane 0).life = .faulted .descOwner ∧ (t.lane 0).ring.consumed = 0
      ∧ t.queue.entries = [⟨.laneFault, some 0, 3⟩] := by decide

/-- The owner word hands a frame record back: FRAME_RECORD with its sequence number (R41). -/
theorem test_writeBack :
    let l := { capLane .listen with
      cap := { (capLane .listen).cap with
        records := [{ openRecord with seq := 12, step := .writeback }] } }
    let t := run .writeBack ((on.lane0 l).owned (burst .writeback 1 1))
    (t.lane 0).cap.records = [] ∧ t.queue.entries = [⟨.frameRecord, some 0, 12⟩] := by decide

/-- A bus error records the address, faults the lane and posts LANE_FAULT (R156, R157). -/
theorem test_errorReply :
    let t := run .errorReply ((on.lane0 (frameLane true)).owned (burst .drain 2 6))
    (t.lane 0).life = .faulted .errorReply ∧ t.bus.fault.addr = 0x1000
      ∧ (t.lane 0).dropped = 1 ∧ t.queue.entries = [⟨.laneFault, some 0, 2⟩] := by decide

/-- NO_RESPONSE after RESPLIM core clocks (R155), with a fault held already (R157). -/
theorem test_noResponse_multi :
    let s := (on.lane0 meterLane).owned (late .fetch 1024)
    let t := run .noResponse { s with bus := { s.bus with
      fault := { s.bus.fault with valid := true, addr := 0x77 } } }
    t.bus.fault.multi = true ∧ t.bus.fault.addr = 0x77
      ∧ (t.lane 0).life = .faulted .noResponse := by decide

/-- One core clock before the limit the report changes nothing (R155). -/
theorem test_noResponse_early :
    (run .noResponse (on.owned (late .fetch 1023))).bus.burst = some (late .fetch 1023) := by decide

/-! ## Lane commands -/

theorem test_start_capture :
    let l := { capLane .inactive with life := .stopped, writeIgnored := true }
    let t := run (.start 0 0) ((on.atCount 15).lane0 l)
    (t.lane 0).life = .running ∧ (t.lane 0).cap.cstate = .listen
      ∧ (t.lane 0).lresult = .accepted ∧ (t.lane 0).writeIgnored = false := by decide

theorem test_start_disabled :
    ((run (.start 0 0) (State.reset.lane0 { capLane .inactive with life := .stopped })).lane
      0).lresult = .disabled := by decide

/-- STOP on a STOPPED lane posts LANE_STOPPED with value STOP (R118). -/
theorem test_stop_stopped :
    (run (.stop 0 0) on).queue.entries = [⟨.laneStopped, some 0, 1⟩] := by decide

theorem test_stop_open :
    ((run (.stop 0 0) (on.lane0 (frameLane true))).lane 0).life = .stopping .stop := by decide

/-- ABORT closes the open frame as ABORTED and leaves its record to complete (R35). -/
theorem test_abort_capture :
    let t := run (.abort 0 0) (on.lane0 (frameLane true))
    (t.lane 0).life = .stopping .abort
      ∧ (t.lane 0).cap.records.map Record.close = [some .aborted] := by decide

theorem test_abort_stopped : (run (.abort 0 0) on).queue.entries = [] := by decide

theorem test_skip_edges :
    ((run (.skip 0 1023) (on.lane0 (capLane .listen))).lane 0).skipCount = 1023
      ∧ ((run (.skip 0 1024) (on.lane0 (capLane .listen))).lane 0).lresult = .badCommand := by
  decide

/-- A flush moves the held spare to the return slot (R144). -/
theorem test_flush_held :
    let t := run (.flush 0 0) (on.lane0 { idleLane with ring := ring 0 (.held (desc 9)) })
    (t.lane 0).life = .flushing false ∧ (t.lane 0).ring.ret = some ⟨desc 9, .flushed⟩ := by decide

/-- A flush that finds nothing posts FLUSH_DONE with value 0 (R122). -/
theorem test_flush_nothing :
    (run (.flush 0 0) (on.lane0 { idleLane with ring := ring 0 .empty })).queue.entries
      = [⟨.flushDone, some 0, 0⟩] := by decide

theorem test_recover :
    let l := { capLane .inactive with life := .faulted .errorReply, dropped := 3 }
    let t := run (.recover 0 0) (on.lane0 l)
    (t.lane 0).life = .stopped ∧ (t.lane 0).ring.slot = .empty ∧ (t.lane 0).dropped = 3 := by
  decide

theorem test_reset_lane :
    let t := run (.reset 0 0) metering
    (t.lane 0).life = .stopped ∧ (t.lane 0).lresult = .accepted
      ∧ (t.meters.get 0).claim = none := by decide

theorem test_lcmdBadCommand :
    ((run (.lcmdBadCommand 0 15 0) on).lane 0).lresult = .badCommand := by decide

/-! ## Global commands and registers -/

theorem test_snap : (run .snap (on.atCount 0x12345678)).readWindow 0x010 = 0x5678
    ∧ (run .snap (on.atCount 0x12345678)).readWindow 0x012 = 0x1234 := by decide

theorem test_note :
    (run .note { on with ctl := { on.ctl with garg := 0xBEEF } }).queue.entries
      = [⟨.note, none, 0xBEEF⟩] := by decide

theorem test_gcmdUnknown : (run (.gcmdUnknown 4) on).ctl.refused = true := by decide

/-- The worked profile passes the checks and becomes entry 2 (R50). -/
theorem test_commit :
    let t := run (.commit 2) staged
    t.presult = .ok ∧ t.readWindow 0x030 = 0x0004 := by decide

/-- BITMAX 65 fails check 3 (R49). -/
theorem test_commit_badBits :
    (run (.commit 2) { on with staging := { workedProfile with bitMax := 65 } }).presult
      = .badBits := by decide

theorem test_clear :
    let t := run (.clear 2) (run (.commit 2) staged)
    t.readWindow 0x030 = 0 ∧ t.staging = workedProfile := by decide

theorem test_load :
    let s := run (.commit 2) staged
    (run (.load 2) { s with staging := .zero }).staging = workedProfile := by decide

theorem test_pcmdBadCommand : (run (.pcmdBadCommand 4 1) on).presult = .badCommand := by decide

theorem test_controlWrite_refused :
    (run (.controlWrite 0) (on.lane0 (capLane .listen))).ctl.refused = true := by decide

theorem test_prescWrite :
    (run (.prescWrite 256) State.reset).time.prescale = 256
      ∧ (run (.prescWrite 257) State.reset).ctl.refused = true := by decide

theorem test_resplimWrite :
    (run (.resplimWrite 16) on).bus.resplim = 16 ∧ (run (.resplimWrite 15) on).ctl.refused = true := by
  decide

theorem test_irqctlWrite :
    (run (.irqctlWrite 0x2001) on).queue.ithresh = 32
      ∧ (run (.irqctlWrite 0x2101) on).ctl.refused = true := by decide

/-- IRQHOLD over a queue that holds an entry starts the timer; it expires 1024 base ticks later (R171). -/
theorem test_irqholdWrite_expiry :
    let s := run (.irqholdWrite 1) (run .note on)
    s.queue.timer = some ⟨0, 1⟩ ∧ (run .holdoffExpiry (s.atCount 1024)).queue.expired = true
      ∧ (run .holdoffExpiry (s.atCount 1023)).queue.expired = false := by decide

theorem test_evqpop :
    let s := run (.stop 0 0) (run .note on)
    (run (.evqpop 0) s).queue.entries = [⟨.laneStopped, some 0, 1⟩] := by decide

theorem test_fclr :
    let s := { on with bus := { on.bus with fault := { on.bus.fault with valid := true, addr := 5 } } }
    (run (.fclr 0) s).bus.fault.valid = false ∧ (run (.fclr 0) s).bus.fault.addr = 5 := by decide

/-- d above RSIZE is refused (R132); d equal to RSIZE is taken. -/
theorem test_postedWrite :
    let s := on.lane0 { idleLane with ring := ring 0 .empty }
    ((run (.postedWrite 0 4) s).lane 0).ring.posted = 4
      ∧ ((run (.postedWrite 0 5) s).lane 0).ring.postRefused = true := by decide

/-- RBASE stores its low 3 bits as 0 (R130). -/
theorem test_rbaseWrite :
    ((run (.rbaseWrite 0 true 0x00AB) (run (.rbaseWrite 0 false 0x123F) on)).lane 0).ring.rbase
      = 0xAB1238 := by decide

theorem test_rsizeWrite :
    let t := run (.rsizeWrite 0 8) (on.lane0 { idleLane with ring := ring 2 (.held (desc 9)) })
    (t.lane 0).ring.rsize = 8 ∧ (t.lane 0).ring.posted = 0 ∧ (t.lane 0).ring.slot = .empty := by
  decide

theorem test_registerWrite :
    (run (.registerWrite .word 0x142 77) on).readWindow 0x142 = 77
      ∧ (run (.registerWrite .byte 0x142 77) on).readWindow 0x142 = 1000 := by decide

/-! ## Witnesses: states and operands that meet the hypotheses of each statement, clause by clause

EveryCommandCompletes, DeviceResetValues, InterruptRequestLevel and ResetMeetsInvariants have no
hypothesis, and need none. -/

/-- A lane with ring size 4 at work in no way, in life `life`. -/
def lifeLane (life : Life) : Lane := { idleLane with life := life, ring := ring 0 .empty }

theorem witness_StepRunsFrontCommand :
    ({ on with pending := [.snap, .note] } : State).pending = .snap :: [.note] := rfl

/-- Two happenings due in one moment, of which the lower lane's comes first, at their exact limits; an idle
clock with ENABLE 0, within PRESCALE 2, and at PRESCALE 1 with and without a word cycle. -/
theorem witness_IdleStepTakesDueOrOneClock :
    (let s := ((on.atCount 15).lane0 (capLane .arming)).setLane 1 (capLane .holdoff)
     s.pending = [] ∧ isDue s (.waitPointReached 0) ∧ isDue s (.waitPointReached 1)
       ∧ dueRank (.waitPointReached 0) ≤ dueRank (.waitPointReached 1)
       ∧ s.due = some (.waitPointReached 0))
    ∧ (State.reset.pending = [] ∧ State.reset.due = none ∧ State.reset.ctl.enable = false)
    ∧ (let s := { on with time := { on.time with prescale := 2 } }
       s.pending = [] ∧ s.due = none ∧ s.ctl.enable = true
         ∧ s.time.phase + 1 < s.time.prescale.toNat ∧ s.bus.burst = none)
    ∧ (let s := on.owned { burst .fill 2 6 with cycle := ⟨0x1004, 0, 1023, 1024⟩ }
       s.pending = [] ∧ s.due = none ∧ s.ctl.enable = true
         ∧ s.time.prescale.toNat ≤ s.time.phase + 1 ∧ s.bus.burst ≠ none) := by
  refine ⟨⟨by decide, ?_, ?_, by decide, by decide⟩, by decide, by decide, by decide⟩ <;>
    exact ⟨by decide, by decide, by decide, by decide, by decide⟩

theorem witness_SoftResetIgnoresWritesAndCompletes :
    (on.resetting.ctl.resetPending = true ∧ isWindowWrite .snap = true
      ∧ isWindowWrite (.registerWrite .word 0x102 1) = true)
    ∧ (on.ctl.resetPending = false ∧ on.bus.burst = none)
    ∧ ((on.owned (burst .fill 2 6)).ctl.resetPending = false
      ∧ (on.owned (burst .fill 2 6)).bus.burst = some (burst .fill 2 6))
    ∧ (on.owned (burst .fill 2 6)).resetting.ctl.resetPending = true
    ∧ (on.owned (burst .fill 2 6)).resetting.bus.burst = some (burst .fill 2 6)
    ∧ Instr.errorReply ∈ [Instr.wordAck 7, .errorReply]
    ∧ (late .fill 1024).cycle.limit.toNat ≤ (late .fill 1024).cycle.elapsed
    ∧ (late .fill 1023).cycle.elapsed < (late .fill 1023).cycle.limit.toNat := by decide

/-- ENABLE 0; ENABLE 1 with and without a word cycle, over a carrier mark, before a first interval, in a
trailing gap, while filling, and with no record. -/
theorem witness_BaseTickCounts :
    State.reset.ctl.enable = false ∧ on.ctl.enable = true ∧ on.bus.burst = none
    ∧ (on.owned (burst .fill 2 6)).bus.burst = some (burst .fill 2 6)
    ∧ (let c := { playRecord with carrier := true, playing := some ⟨true, 4, 7⟩ }
       let s := on.lane0 (replayLane .rPlay c)
       s.ctl.enable = true ∧ (s.lane 0).rep.current = some c ∧ (s.lane 0).rep.rstate = .rPlay
         ∧ c.playing = some ⟨true, 4, 7⟩)
    ∧ (((on.lane0 (replayLane .rPlay playRecord)).lane 0).rep.current = some playRecord
      ∧ ((on.lane0 (replayLane .rPlay playRecord)).lane 0).rep.rstate = .rPlay
      ∧ playRecord.playing = none)
    ∧ ((on.lane0 (replayLane .rTrail playRecord)).lane 0).rep.rstate = .rTrail
    ∧ (((on.lane0 (replayLane .rFill playRecord)).lane 0).rep.rstate ≠ .rPlay
      ∧ ((on.lane0 (replayLane .rFill playRecord)).lane 0).rep.rstate ≠ .rTrail)
    ∧ (on.lane 0).rep.current = none := by decide

theorem witness_TimebaseControlWrites :
    (on.ctl.resetPending = false ∧ (1 : Word).getLsbD 0 = on.ctl.enable)
    ∧ ((1 : Word).getLsbD 0 = true ∧ State.reset.ctl.resetPending = false
      ∧ State.reset.ctl.enable = false)
    ∧ ((0 : Word).getLsbD 0 = false ∧ on.ctl.enable = true
      ∧ ∃ n, atWork ((on.lane0 (lifeLane (.flushing true))).lane n))
    ∧ ((0 : Word).getLsbD 0 = false ∧ on.ctl.enable = true ∧ ∀ n, ¬ atWork (on.lane n))
    ∧ (on.ctl.enable = true ∧ State.reset.ctl.enable = false
      ∧ (0xFE00 : Word).extractLsb' 0 9 = 0 ∧ 256 < ((257 : Word).extractLsb' 0 9).toNat
      ∧ 1 ≤ ((1 : Word).extractLsb' 0 9).toNat ∧ ((1 : Word).extractLsb' 0 9).toNat ≤ 256
      ∧ 1 ≤ ((256 : Word).extractLsb' 0 9).toNat
      ∧ ((256 : Word).extractLsb' 0 9).toNat ≤ 256) := by
  refine ⟨by decide, by decide, ⟨by decide, by decide, 0, .inr (.inr ⟨true, rfl⟩)⟩,
    ⟨by decide, by decide, ?_⟩, by decide⟩
  intro n h
  fin_cases n <;> rcases h with h | ⟨e, h⟩ | ⟨a, h⟩ <;> cases h

theorem witness_ResplimWriteTakenOrRefused :
    on.ctl.resetPending = false ∧ 16 ≤ ((0xF010 : Word).extractLsb' 0 12).toNat
    ∧ 16 ≤ ((0x0FFF : Word).extractLsb' 0 12).toNat ∧ ((0xF00F : Word).extractLsb' 0 12).toNat < 16
    ∧ Instr.softResetComplete ∈ [Instr.softReset, .softResetComplete] := by decide

theorem witness_SnapCopiesCountNotePostsTag :
    on.ctl.resetPending = false ∧ on.ctl.enable = true
    ∧ exec .baseTick (on.atCount 0xFFFFFFFF) = .next (run .baseTick (on.atCount 0xFFFFFFFF))
    ∧ exec .snap on = .next (run .snap on) := ⟨rfl, rfl, rfl, rfl⟩

theorem witness_CommandCodesAndRowsAgree :
    on.ctl.resetPending = false
    ∧ (0 : BitVec 4) = 0 ∧ 3 < (4 : BitVec 4).toNat ∧ 3 < (15 : BitVec 4).toNat
    ∧ 7 < (8 : BitVec 4).toNat ∧ 7 < (15 : BitVec 4).toNat
    ∧ ∀ c ∈ [(0 : Nat), 1, 2, 3, 4, 5, 6, 7, 8, 15],
      (BitVec.ofNat 16 (0x0120 + c)).extractLsb' 0 4 = BitVec.ofNat 4 c := by decide

/-- STATUS, PVALID and the read-only lane registers; the holes of the map at their edges. -/
theorem witness_RegisterWriteAccess :
    on.ctl.resetPending = false
    ∧ readOnly (wordOffset 0x006) = true ∧ readOnly (wordOffset 0x031) = true
    ∧ readOnly (wordOffset 0x11E) = true ∧ readOnly (wordOffset 0x2F4) = true
    ∧ unmapped (wordOffset 0x032) = true ∧ unmapped (wordOffset 0x07F) = true
    ∧ unmapped (wordOffset 0x0B4) = true ∧ unmapped (wordOffset 0x0FE) = true
    ∧ unmapped (wordOffset 0x136) = true ∧ unmapped (wordOffset 0x2FF) = true
    ∧ unmapped (wordOffset 0x300) = true ∧ unmapped (wordOffset 0x3FE) = true := by decide

theorem witness_RegisterWriteStoresField :
    on.ctl.resetPending = false ∧ 0 < 26 ∧ 25 < 26
    ∧ 0x02 ∈ plainLaneRegs ∧ 0x14 ∈ plainLaneRegs
    ∧ (on.lane 0).life = .stopped ∧ (on.lane 7).life = .stopped
    ∧ ((on.lane0 (capLane .listen)).lane 0).life ≠ .stopped := by decide

/-- A meter lane with its unit in each of two states, replay lanes with a current, a finished and no
record; the bus in its three states, and an empty and a filled queue. -/
theorem witness_StatusRegistersShowState :
    (on.meters.heldBy 0 = none ∧ metering.meters.heldBy 0 = some 0
      ∧ metering.meters.meter0.claim = some 0
      ∧ (let p : MeterPool := ⟨.free, { countingUnit with claim := some 7, state := .result }⟩
         p.meter1.claim = some 7 ∧ p.heldBy 7 = some 1 ∧ (p.get 1).state = .result))
    ∧ (replayLane .rPlay playRecord).rep.current = some playRecord
    ∧ (doneLane.rep.current = none ∧ doneLane.rep.finished = some doneRecord)
    ∧ (idleLane.rep.current = none ∧ idleLane.rep.finished = none)
    ∧ (on.bus.bstate = .idle
      ∧ ({ on.bus with bstate := .requesting } : BusMaster).bstate = .requesting
      ∧ (on.owned (burst .fill 2 6)).bus.bstate = .owned (burst .fill 2 6))
    ∧ (on.queue.entries = [] ∧ (run .note on).queue.entries = ⟨.note, none, 0⟩ :: []) := by decide

/-- A queue that holds `k` NOTE events and `newest` behind them. -/
def queueOf (k : Nat) (newest : Event) : EventQueue :=
  { EventQueue.reset with entries := List.replicate k ⟨.note, none, 1⟩ ++ [newest] }

/-- The queue with 30 and 31 entries, with 31 of which the newest is OVERFLOW, and with 32, at the top
of the OVERFLOW count. -/
theorem witness_PostTakesOneEvent :
    (let q := queueOf 29 ⟨.note, none, 2⟩
     q.entries.length ≤ 30 ∧ q.entries.length ≤ 32 ∧ q.entries.length ≠ 32)
    ∧ (let q := queueOf 30 ⟨.note, none, 2⟩
       q.entries.length = 31 ∧ newestIsOverflow q.entries = false)
    ∧ (let q := queueOf 30 ⟨.overflow, none, 1⟩
       31 ≤ q.entries.length ∧ q.entries.length ≠ 32
         ∧ q.entries = List.replicate 30 ⟨.note, none, 1⟩ ++ [⟨.overflow, none, 1⟩])
    ∧ (let q := queueOf 31 ⟨.overflow, none, 65535⟩
       q.entries.length = 32 ∧ newestIsOverflow q.entries = true
         ∧ q.entries = List.replicate 31 ⟨.note, none, 1⟩ ++ [⟨.overflow, none, 65535⟩]) := by decide

/-- The part with the queue `q`. -/
def queued (q : EventQueue) : State := { on with queue := q }

theorem witness_PopRemovesOldest :
    on.ctl.resetPending = false ∧ on.queue.entries = []
    ∧ (queued (queueOf 0 ⟨.note, none, 2⟩)).queue.entries = [⟨.note, none, 2⟩]
    ∧ (queued (queueOf 1 ⟨.note, none, 2⟩)).queue.entries
        = ⟨.note, none, 1⟩ :: ⟨.note, none, 2⟩ :: []
    ∧ wordOffset 0x026 = 0x026 ∧ wordOffset 0x027 = 0x026
    ∧ on.resetting.ctl.resetPending = true := by decide

theorem witness_InterruptSettingsAndHoldoff :
    on.ctl.resetPending = false
    ∧ (0xC0FF : Word).extractLsb' 8 6 = 0 ∧ 32 < ((0x2100 : Word).extractLsb' 8 6).toNat
    ∧ (1 ≤ ((0x0100 : Word).extractLsb' 8 6).toNat
      ∧ ((0x2001 : Word).extractLsb' 8 6).toNat ≤ 32)
    ∧ (0 : Word) = 0 ∧ (1 : Word) ≠ 0 ∧ on.queue.entries = []
    ∧ (queued (queueOf 0 ⟨.note, none, 2⟩)).queue.entries ≠ []
    ∧ (let s := (queued { queueOf 0 ⟨.note, none, 2⟩ with timer := some ⟨10, 1⟩ }).atCount 1034
       s.queue.timer = some ⟨10, 1⟩ ∧ (1 : Word) ≠ 0
         ∧ (1 : Word).toNat * 1024 ≤ (s.time.count - 10).toNat)
    ∧ (let s := (queued { queueOf 0 ⟨.note, none, 2⟩ with timer := some ⟨10, 1⟩ }).atCount 1033
       s.queue.timer = some ⟨10, 1⟩ ∧ (s.time.count - 10).toNat < (1 : Word).toNat * 1024)
    ∧ on.queue.timer = none := by decide

/-! ### Profiles -/

/-- A profile with a lead, a REPEAT form and bit bounds 1 to 64. -/
def repeatProfile : ProfileFields :=
  { workedProfile with hasRepeat := true, bitMin := 1, bitMax := 64, repeatSpace := ⟨20, 22, 25⟩ }

theorem witness_CommitChecksAndChanges :
    ProfileFields.zero.commitResult = .badRange
    ∧ ({ workedProfile with oneMark := ⟨4, 9, 8⟩ } : ProfileFields).commitResult = .badNominal
    ∧ ({ workedProfile with bitMax := 65 } : ProfileFields).commitResult = .badBits
    ∧ ({ repeatProfile with hasLead := false } : ProfileFields).commitResult = .repeatNeedsLead
    ∧ ({ workedProfile with oneSpace := ⟨8, 9, 10⟩ } : ProfileFields).commitResult = .ambiguous
    ∧ repeatProfile.commitResult = .ok
    ∧ (on.ctl.resetPending = false ∧ on.staging.commitResult ≠ .ok)
    ∧ (staged.ctl.resetPending = false ∧ staged.staging.commitResult = .ok) := by decide

theorem witness_LoadCopiesEntry :
    on.ctl.resetPending = false ∧ profileOk (on.table.get 7) ∧ (on.table.get 7).valid = false := by
  decide

/-- Both bounds of the bit count, and the REPEAT form. -/
theorem witness_EncodedSignalDecodes :
    repeatProfile.commitResult = .ok ∧ repeatProfile.bitMin.toNat ≤ 1 ∧ 1 ≤ repeatProfile.bitMax.toNat
    ∧ repeatProfile.bitMin.toNat ≤ 64 ∧ 64 ≤ repeatProfile.bitMax.toNat
    ∧ repeatProfile.hasRepeat = true := by decide

/-! ### The front end and frame capture -/

/-- A lane in mode `m` in life `life`, with a change to HIGH pending since count 102 under MINW 3. -/
def changing (m : LMode) (life : Life) : Lane :=
  { idleLane with
    regs := { capRegs with lmode := m, minw := 3 }, life := life, line := .high
    fe := ⟨.high, .low, some ⟨⟨102, 102⟩, .high⟩, ⟨10, 10⟩⟩ }

theorem witness_TransitionBeginsOrAbsorbs :
    ((on.lane 0).regs.lmode = .none
      ∧ ((on.lane0 (replayLane .rPlay playRecord)).lane 0).regs.lmode = .replay)
    ∧ (((on.lane0 (capLane .listen)).lane 0).regs.lmode = .capture
      ∧ ((on.lane0 (capLane .listen)).lane 0).fe.change = none)
    ∧ (((on.lane0 (changing .meter .running)).lane 0).regs.lmode = .meter
      ∧ ((on.lane0 (changing .meter .running)).lane 0).fe.change ≠ none
      ∧ ¬ ((on.lane0 (changing .meter .running)).lane 0).runs .capture)
    ∧ (let l := { frameLane true with fe := (changing .capture .running).fe }
       let s := on.lane0 { l with
         cap := { l.cap with frame := some { openFrame true with glitches := 255 } } }
       (s.lane 0).runs .capture ∧ (s.lane 0).cap.cstate = .inFrame
         ∧ (s.lane 0).cap.frame = some { openFrame true with glitches := 255 }
         ∧ (s.lane 0).cap.waiting = false ∧ (s.lane 0).fe.change ≠ none)
    ∧ (∀ c ∈ [CState.inactive, .arming, .listen, .holdoff],
      let s := on.lane0 { capLane c with fe := (changing .capture .running).fe }
      (s.lane 0).runs .capture ∧ (s.lane 0).cap.waiting = false ∧ (s.lane 0).fe.change ≠ none
        ∧ (s.lane 0).cap.cstate ≠ .inFrame ∧ (s.lane 0).cap.frame = none) := by decide

/-- At the confirmation time and one lane tick before it; MINW 0 counts as 1. -/
theorem witness_EdgeAcceptedAfterMinimumWidth :
    (let s := (on.atCount 105).lane0 (changing .capture .stopped)
     let l := s.lane 0
     l.fe.change = some ⟨⟨102, 102⟩, .high⟩ ∧ s.ctl.enable = true ∧ l.life.active = false
       ∧ max 1 l.regs.minw.toNat ≤ ((s.time.count >>> l.regs.div.toNat) - 102).toNat
           % 2 ^ (32 - l.regs.div.toNat))
    ∧ (let s := (on.atCount 104).lane0 (changing .capture .stopped)
       let l := s.lane 0
       l.fe.change = some ⟨⟨102, 102⟩, .high⟩
         ∧ ((s.time.count >>> l.regs.div.toNat) - 102).toNat % 2 ^ (32 - l.regs.div.toNat)
           < max 1 l.regs.minw.toNat)
    ∧ (on.lane 0).fe.change = none ∧ State.reset.ctl.enable = false := by decide

/-- The confirmed edge at its time on a capture lane in LISTEN, in an open frame and in ARMING, on a meter
lane and on a stopped lane; the frame begun at its limits: the mark 9 and 8 lane ticks old, TLIMIT 1
reached and one base tick short. -/
theorem witness_EdgeReachesEngine :
    (∀ m ∈ [LMode.capture, .meter], ∀ life ∈ [Life.running, .stopped],
      let s := (on.atCount 105).lane0 (changing m life)
      let l := s.lane 0
      l.fe.change = some ⟨⟨102, 102⟩, .high⟩ ∧ s.ctl.enable = true
        ∧ max 1 l.regs.minw.toNat
          ≤ tickDiff l.regs.div (s.time.count >>> l.regs.div.toNat) 102
        ∧ (life = .running → l.runs m) ∧ (life = .stopped → ¬ l.runs m))
    ∧ (let l := { changing .capture .running with cap := (capLane .listen).cap }
       l.cap.cstate = .listen ∧ l.life = .running ∧ Level.high ≠ l.regs.idle
         ∧ (l.beginFrame on.table ⟨102, 102⟩).lane.cap.frame
           = some ⟨102, 102, true, 0, 0, 0, 0, .dropped⟩)
    ∧ (let l := { changing .capture .running with cap := (frameLane false).cap }
       l.runs .capture ∧ l.cap.cstate = .inFrame ∧ l.cap.frame = some (openFrame false)
         ∧ (l.endInterval on.table true ⟨102, 102⟩ (openFrame false)).cap.frame.isSome = true
         ∧ ({ l with regs := { l.regs with maxiv := 3 } }.endInterval on.table true ⟨102, 102⟩
             (openFrame false)).cap.frame = none)
    ∧ (capLane .arming).cap.cstate ≠ .inFrame
    ∧ capRegs.maxmark.toNat ≤ tickDiff 0 111 102 ∧ ¬ capRegs.maxmark.toNat ≤ tickDiff 0 110 102
    ∧ (1 : Word).toNat * 1024 ≤ ((1126 : Stamp) - 102).toNat
    ∧ ¬ (1 : Word).toNat * 1024 ≤ ((1125 : Stamp) - 102).toNat
    ∧ metering.meters.heldBy 0 = some 0 := by decide

/-- A decision waiting in ARMING, in a mark and in a space; the accepted edge at its time in a frame not
kept, whose new mark is one lane tick short of its mark point. -/
theorem witness_WaitingDecisionSettles :
    (∀ c ∈ [CState.arming, .holdoff, .inFrame],
      let s := (on.atCount 105).lane0 { changing .capture .running with
        cap := { (frameLane true).cap with cstate := c, waiting := true } }
      let l := s.lane 0
      l.fe.change = some ⟨⟨102, 102⟩, .high⟩ ∧ l.runs .capture ∧ l.cap.waiting = true
        ∧ l.cap.cstate = c ∧ l.cap.frame = some (openFrame true) ∧ s.ctl.enable = true
        ∧ max 1 l.regs.minw.toNat
          ≤ tickDiff l.regs.div (s.time.count >>> l.regs.div.toNat) 102)
    ∧ ((openFrame true).inMark = true ∧ (openFrame false).inMark = false)
    ∧ (let f := { openFrame false with disp := .skipped }
       f.disp ≠ .kept ∧ f.total + 1 ≠ capRegs.maxiv.toNat
         ∧ tickDiff 0 110 102 < capRegs.maxmark.toNat) := by decide

theorem witness_LcfgWriteResynchronises :
    on.ctl.resetPending = false ∧ (on.lane 0).life = .stopped
    ∧ 0x02 ∈ plainLaneRegs ∧ 0x14 ∈ plainLaneRegs
    ∧ ((on.lane0 (capLane .listen)).lane 0).life ≠ .stopped := by decide

/-- A sampling lane with a pending change among lanes that do not sample. -/
theorem witness_PendingChangeMeansLevelsDiffer :
    everyLane filterOk (on.lane0 (changing .capture .running)) := by
  intro n
  fin_cases n <;> intro _ lvl <;> cases lvl <;> decide

/-- The wait point, reached and one lane tick short, and waited for; the three limits of an open frame on
a RUNNING and a STOPPING lane, each at its point and one tick short. -/
theorem witness_WaitPointAndLimitCloses :
    (let l := capLane .holdoff
     l.runs .capture ∧ l.cap.cstate = .holdoff ∧ l.cap.waiting = false ∧ l.filteredIdle
       ∧ l.regs.lgap.toNat
         ≤ tickDiff l.regs.div ((15 : Stamp) >>> l.regs.div.toNat) l.fe.lastEdge.tick
       ∧ ¬ l.regs.lgap.toNat
         ≤ tickDiff l.regs.div ((14 : Stamp) >>> l.regs.div.toNat) l.fe.lastEdge.tick)
    ∧ (¬ (lifeLane .running).runs .capture
      ∧ (capLane .listen).cap.cstate ≠ .arming ∧ (capLane .listen).cap.cstate ≠ .holdoff)
    ∧ ({ (capLane .holdoff).cap with waiting := true } : Assembler).waiting = true
    ∧ (∀ inMark, ∀ life ∈ [Life.running, .stopping .stop],
       let l := { frameLane inMark with life := life }
       l.runs .capture ∧ l.cap.cstate = .inFrame
         ∧ l.cap.frame = some (openFrame inMark) ∧ l.cap.waiting = false ∧ l.fe.change = none)
    ∧ (let l := { frameLane false with fe := (changing .capture .running).fe }
       l.fe.change ≠ none ∧ (openFrame false).inMark = false
         ∧ l.regs.lgap.toNat ≤ tickDiff 0 15 (openFrame false).intervalStart
         ∧ ¬ l.regs.lgap.toNat ≤ tickDiff 0 14 (openFrame false).intervalStart)
    ∧ (let l := { frameLane true with fe := (changing .capture .running).fe }
       l.fe.change ≠ none ∧ (openFrame true).inMark = true
         ∧ l.regs.maxmark.toNat ≤ tickDiff 0 19 (openFrame true).intervalStart
         ∧ ¬ l.regs.maxmark.toNat ≤ tickDiff 0 18 (openFrame true).intervalStart)
    ∧ ((1 : Word) ≠ 0 ∧ (1 : Word).toNat * 1024 ≤ ((1034 : Stamp) - (openFrame true).start).toNat
      ∧ ¬ (1 : Word).toNat * 1024 ≤ ((1033 : Stamp) - (openFrame true).start).toNat) := by
  decide

/-- Frames kept and not, over a filled and an empty FIFO, with one record and with two; a TRUNCATED header;
a STUCK mark stored with exactly two entries free, and not stored with one, or at capacity. -/
theorem witness_CloseFixesRecord :
    (({ openFrame true with disp := .dropped } : Frame).disp ≠ .kept ∧ (openFrame true).disp = .kept)
    ∧ ((frameLane false).cap.records = [] ++ [openRecord]
      ∧ (frameLane false).fifo = .interval 3 :: [.interval 4])
    ∧ (let older := { openRecord with close := some .gap, step := .header }
       let l := { frameLane false with
         fifo := [], cap := { (frameLane false).cap with records := [older, openRecord] } }
       l.cap.records = [older] ++ [openRecord] ∧ l.fifo = [] ∧ (∀ q ∈ [older], q.step ≠ .drain)
         ∧ openRecord.step = .drain)
    ∧ (let r := { openRecord with close := some .full, total := 7, stored := 6 }
       r.close = some .full ∧ r.stored < r.total)
    ∧ (let m : Matcher := ⟨.repeatEnd, 0, 0, 0⟩
       let ms := ((Eight.fill Matcher.off).set 2 m).set 5 m
       (∀ j : ProfileIx, j < 2 → (ms.get j).outcome (on.table.get j).fields j = none)
         ∧ (ms.get 2).outcome (on.table.get 2).fields 2 ≠ none)
    ∧ ((frameLane true).cap.records.getLast? = some openRecord
      ∧ (openFrame true).stored < openRecord.capacity
      ∧ (List.replicate 30 (FifoEntry.interval 4)).length + 2 ≤ 32
      ∧ 32 < (List.replicate 31 (FifoEntry.interval 4)).length + 2
      ∧ openRecord.capacity ≤ ({ openFrame true with stored := 6 } : Frame).stored) := by decide

/-- A frame that is skipped, one with no slot, one over an empty and over a posted ring, one whose
spare is odd or a word short, and one that is kept at the minimum. -/
theorem witness_FrameStartDisposition :
    0 < ({ capLane .listen with skipCount := 1 } : Lane).skipCount
    ∧ (let l := { capLane .listen with
         cap := { (capLane .listen).cap with records := [openRecord, openRecord] } }
       l.skipCount = 0 ∧ l.cap.records.length ≥ 2)
    ∧ ({ capLane .listen with fifo := List.replicate 32 .endMarker } : Lane).fifo.length ≥ 32
    ∧ (let l := { capLane .listen with ring := ring 0 .empty }
       l.skipCount = 0 ∧ ¬ (l.cap.records.length ≥ 2 ∨ l.fifo.length ≥ 32)
         ∧ (∀ d, l.ring.slot ≠ .held d) ∧ l.ring.posted = l.ring.consumed
         ∧ l.ring.ringEmpty = false)
    ∧ (let l := { capLane .listen with ring := ring 3 (.fetching 0 false []) }
       (∀ d, l.ring.slot ≠ .held d) ∧ l.ring.posted ≠ l.ring.consumed)
    ∧ (⟨2, .device, 0x2001, 14⟩ : Desc).addr.getLsbD 0 = true ∧ (desc 8).length.toNat < 9
    ∧ (let l := { capLane .listen with ring := ring 3 (.held (desc 9)) }
       l.skipCount = 0 ∧ l.ring.slot = .held (desc 9) ∧ (desc 9).addr.getLsbD 0 = false
         ∧ l.regs.pmask = 0 ∧ 9 ≤ (desc 9).length.toNat)
    ∧ (let l := { capLane .listen with regs := { capRegs with pmask := 4 } }
       l.ring.slot = .held (desc 14) ∧ l.regs.pmask ≠ 0 ∧ 14 ≤ (desc 14).length.toNat) := by
  refine ⟨by decide, by decide, by decide, ⟨by decide, by decide, ?_, by decide, by decide⟩,
    ⟨?_, by decide⟩, by decide, by decide, by decide, by decide⟩ <;> intro d h <;> cases h

/-- Below capacity with two entries free, at capacity, below capacity with one free, a frame not kept, and
at MAXIV. -/
theorem witness_IntervalStoredOrCloses :
    (let l := { frameLane true with fifo := List.replicate 30 (.interval 4) }
     (openFrame true).disp = .kept ∧ l.cap.records.getLast? = some openRecord
       ∧ (openFrame true).total + 1 ≠ l.regs.maxiv.toNat
       ∧ (openFrame true).stored < openRecord.capacity ∧ l.fifo.length + 2 ≤ 32)
    ∧ openRecord.capacity ≤ ({ openFrame true with stored := 6 } : Frame).stored
    ∧ 32 < ({ frameLane true with fifo := List.replicate 31 (.interval 4) } : Lane).fifo.length + 2
    ∧ (let f := { openFrame true with disp := .dropped, total := 1021 }
       f.disp ≠ .kept ∧ f.total + 1 ≠ (frameLane true).regs.maxiv.toNat)
    ∧ (let l := frameLane true
       ({ openFrame true with total := 1022 } : Frame).total + 1 = l.regs.maxiv.toNat
         ∧ l.cap.records.getLast? = some openRecord) := by decide

/-! ### Meter units -/

/-- An armed unit, one between items and one with an item in progress under each MMODE; the last item of a
SINGLE, a CONTINUOUS and a STOPPING measurement, with its result bound and lost. -/
theorem witness_ItemEndContinuesOrCompletes :
    (({ countingUnit with state := .armed } : MeterUnit).state = .armed
      ∧ ({ countingUnit with inItem := false } : MeterUnit).inItem = false
      ∧ countingUnit.state = .counting ∧ countingUnit.inItem = true)
    ∧ (∀ m ∈ [(0 : BitVec 2), 1, 2], m = 0 ∨ m = 1 ∨ m = 2)
    ∧ meterLane.regs.mmode = 0 ∧ meterLane.life = .running
    ∧ countingUnit.items + 1 ≠ meterLane.regs.mcount.toNat
    ∧ ({ countingUnit with items := 1 } : MeterUnit).items + 1 = meterLane.regs.mcount.toNat
    ∧ meterLane.regs.cont = false
    ∧ (meterLane.disposeResult countingUnit 0 .complete).lane.result.isSome = true
    ∧ (({ meterLane with ring := ring 0 .empty } : Lane).disposeResult countingUnit 0
        .complete).lane.result = none
    ∧ (let l := { meterLane with regs := { meterLane.regs with cont := true, mmode := 1 } }
       l.regs.cont = true ∧ l.regs.mmode ≠ 0)
    ∧ ({ meterLane with life := .stopping .stop } : Lane).life = .stopping .stop := by decide

/-- A skipped result, one with the result slot full, one with a spare a word short or none, and a bound
one at the minimum. -/
theorem witness_ResultDisposition :
    0 < ({ meterLane with skipCount := 1 } : Lane).skipCount
    ∧ (let l := { meterLane with
         result := some (countingUnit.resultWith meterLane.regs 0 .complete (desc 9) 0 0) }
       l.skipCount = 0 ∧ l.result.isSome = true)
    ∧ (let l := { meterLane with ring := ring 0 .empty }
       l.skipCount = 0 ∧ l.result = none ∧ (∀ d, l.ring.slot ≠ .held d)
         ∧ l.ring.posted = l.ring.consumed ∧ l.ring.ringEmpty = false)
    ∧ (let l := { meterLane with ring := ring 1 (.held (desc 8)) }
       l.skipCount = 0 ∧ l.result = none ∧ l.ring.slot = .held (desc 8)
         ∧ (desc 8).length.toNat < 9 ∧ (⟨2, .device, 0x2001, 9⟩ : Desc).addr.getLsbD 0 = true)
    ∧ (meterLane.skipCount = 0 ∧ meterLane.result = none ∧ meterLane.ring.slot = .held (desc 9)
      ∧ (desc 9).addr.getLsbD 0 = false ∧ 9 ≤ (desc 9).length.toNat
      ∧ meterLane.regs.spread = false ∧ meterLane.life.fetches = true)
    ∧ (({ meterLane.regs with spread := true } : LaneRegs).spread = true
      ∧ (desc 12).length.toNat < 13 ∧ 13 ≤ (desc 13).length.toNat) := by
  refine ⟨by decide, by decide, ⟨by decide, by decide, ?_, by decide, by decide⟩, by decide,
    by decide, by decide⟩
  intro d h
  cases h

/-- The timeout exactly run out and one base tick short, on a RUNNING and a STOPPING lane, SINGLE and
CONTINUOUS, with the result bound and lost; no timeout, no unit, and a lane not at work. -/
theorem witness_MeterTimeoutEndsMeasurement :
    (∀ life ∈ [Life.running, .stopping .stop],
      let s := (metering.lane0 { meterLane with life := life }).atCount 1124
      (s.meters.get 0).timeout = some 100 ∧ (s.lane 0).runs .meter ∧ (s.lane 0).life = life
       ∧ s.meters.heldBy 0 = some 0 ∧ (s.meters.get 0).state = .counting
       ∧ (s.lane 0).regs.mtimeout ≠ 0
       ∧ (s.lane 0).regs.mtimeout.toNat * 1024 ≤ (s.time.count - 100).toNat
       ∧ ((s.atCount 1123).time.count - 100).toNat < (s.lane 0).regs.mtimeout.toNat * 1024
       ∧ (s.lane 0).regs.cont = false
       ∧ ((s.lane 0).disposeResult (s.meters.get 0) 0 .timeout).lane.result.isSome = true)
    ∧ (({ meterLane with ring := ring 0 .empty } : Lane).disposeResult countingUnit 0
        .timeout).lane.result = none
    ∧ ({ meterLane with regs := { meterLane.regs with cont := true } } : Lane).regs.cont = true
    ∧ (let s := { metering with meters := ⟨{ countingUnit with timeout := none }, .free⟩ }
       s.meters.heldBy 0 = some 0 ∧ (s.meters.get 0).timeout = none)
    ∧ on.meters.heldBy 0 = none ∧ ¬ (on.lane 0).runs .meter := by decide

/-! ### Replay -/

/-- The phase at CPER, at CHIGH with the level active, one short of CHIGH, and in the idle phase one short of
CPER; a record with no carrier, and a lane with nothing to play. -/
theorem witness_PinAndCarrier :
    ¬ (capLane .listen).runs .replay
    ∧ ((replayLane .rTrail playRecord).runs .replay
      ∧ (replayLane .rTrail playRecord).rep.rstate ≠ .rPlay)
    ∧ ((replayLane .rPlay playRecord).runs .replay
      ∧ (replayLane .rPlay playRecord).rep.rstate = .rPlay
      ∧ ∀ c, (replayLane .rPlay playRecord).rep.current = some c → c.playing = none)
    ∧ (let c := { playRecord with
         carrier := true, playing := some ⟨true, 4, 8⟩, carrierPhase := 3, carrierActive := false }
       let l := replayLane .rPlay c
       l.runs .replay ∧ l.rep.rstate = .rPlay ∧ l.rep.current = some c
         ∧ c.playing = some ⟨true, 4, 8⟩ ∧ c.carrier = true ∧ c.carrierPhase = l.regs.cper.toNat)
    ∧ ((replayLane .rPlay playRecord).regs.chigh.toNat ≤ 1
      ∧ 1 < (replayLane .rPlay playRecord).regs.cper.toNat
      ∧ 0 < (replayLane .rPlay playRecord).regs.chigh.toNat
      ∧ 2 < (replayLane .rPlay playRecord).regs.cper.toNat)
    ∧ playRecord.carrier = false
    ∧ (on.lane 0).rep.rstate ≠ .rPlay ∧ (on.lane 0).rep.current = none := by
  refine ⟨by decide, by decide, ⟨by decide, by decide, ?_⟩, by decide, by decide, by decide,
    by decide⟩
  intro c h
  cases h
  rfl

/-- The record of a LOAD whose header words are these. -/
def loading (w0 w1 w2 w3 : Word) : ReplayRecord :=
  { ReplayRecord.taken (desc 20) with loaded := [w0, w1, w2, w3] }

/-- An unknown kind, a zero gap, an even n and one a word too long, a REPEAT code of an EMPTY entry;
the longest n that fits, and the bit count at its bound. -/
theorem witness_ReplayHeaderChecked :
    (let l := replayLane .rLoad (loading 3 7 3 0)
     l.rep.current = some (loading 3 7 3 0) ∧ (loading 3 7 3 0).loaded = [3, 7, 3, 0]
       ∧ l.rep.rstate = .rLoad)
    ∧ ((3 : Word).extractLsb' 0 4 ≠ 1 ∧ (3 : Word).extractLsb' 0 4 ≠ 2) ∧ (0 : Word) = 0
    ∧ ((1 : Word).extractLsb' 0 4 = 1 ∧ ((16 : Word).extractLsb' 0 10).toNat % 2 = 0
      ∧ (desc 20).length.toNat < 4 + ((17 : Word).extractLsb' 0 10).toNat)
    ∧ ((2 : Word).extractLsb' 0 4 = 2 ∧ (on.table.get 0).valid = false)
    ∧ ((15 : Word).extractLsb' 0 10).toNat % 2 = 1
    ∧ ¬ (desc 20).length.toNat < 4 + ((15 : Word).extractLsb' 0 10).toNat
    ∧ (let p := ((run (.commit 2) staged).table.get ((0x0302 : Word).extractLsb' 0 3).toFin).fields
       let bits := ((0x0302 : Word).extractLsb' 8 7).toNat
       (0x0302 : Word).getLsbD 4 = false ∧ ¬ bits < p.bitMin.toNat ∧ ¬ p.bitMax.toNat < bits
         ∧ ¬ (desc 20).length.toNat < 4 + (bits + 15) / 16) := by decide

theorem witness_IntervalsPlayedFromFifo :
    (let c := { playRecord with tickSeen := true }
     let l := replayLane .rPlay c
     l.rep.rstate = .rPlay ∧ l.rep.current = some c ∧ c.kind = some .intervals
       ∧ c.endPending = false ∧ c.playing = none ∧ c.tickSeen = true
       ∧ l.fifo = .interval 4 :: [.interval 5] ∧ (4 : Word) ≠ 0)
    ∧ (let c := { playRecord with playing := some ⟨true, 4, 0⟩, played := 2 }
       c.playing = some ⟨true, 4, 0⟩ ∧ c.played < c.count.toNat)
    ∧ (let c := { playRecord with playing := some ⟨true, 4, 0⟩, played := 3 }
       c.count.toNat ≤ c.played)
    ∧ ({ replayLane .rPlay playRecord with fifo := [.interval 0, .interval 5] } : Lane).fifo.head?
        = some (.interval 0)
    ∧ ({ replayLane .rPlay playRecord with fifo := [] } : Lane).fifo = []
    ∧ ¬ (playRecord.playing = none ∧ playRecord.tickSeen = true)
    ∧ ¬ ∃ p, playRecord.playing = some p ∧ p.left = 0 := by
  refine ⟨by decide, by decide, by decide, by decide, by decide, by decide, ?_⟩
  rintro ⟨p, h, -⟩
  cases h

/-- The last pass; a pass stopped early; a further pass of an INTERVALS record short of and at the fill
threshold, with a zero at the head, and of a CODE record in both forms. -/
theorem witness_TrailingGapEndsPass :
    (let l := replayLane .rTrail playRecord
     l.rep.rstate = .rTrail ∧ l.rep.current = some playRecord ∧ playRecord.gapLeft = 0
       ∧ playRecord.passes + 1 = playRecord.repeatCount.toNat + 1)
    ∧ (let c := { playRecord with repeatCount := 255, passes := 254, stopRequested := true }
       ¬ c.passes + 1 = c.repeatCount.toNat + 1 ∧ c.stopRequested = true)
    ∧ (let c := { playRecord with repeatCount := 1 }
       let l := replayLane .rTrail c
       ¬ c.passes + 1 = c.repeatCount.toNat + 1 ∧ c.stopRequested = false
         ∧ c.kind = some .intervals ∧ l.fifo.length < min c.count.toNat 16)
    ∧ (let l := { replayLane .rTrail { playRecord with repeatCount := 1 } with
         fifo := [.interval 4, .interval 5, .interval 6] }
       min playRecord.count.toNat 16 ≤ l.fifo.length
         ∧ l.fifo = .interval 4 :: [.interval 5, .interval 6]
         ∧ FifoEntry.interval 0 :: [.interval 5] = .interval (0 : Word) :: [.interval 5])
    ∧ (let c := { playRecord with kind := some .code, repeatCount := 1, bitCount := 1 }
       c.kind = some .code ∧ ¬ c.passes + 1 = c.repeatCount.toNat + 1
         ∧ workedProfile.dataIntervals c.bitCount.toNat c.value = 90 :: [45, 6, 6, 6]
         ∧ workedProfile.repeatIntervals = 90 :: [0, 6])
    ∧ ({ playRecord with gapLeft := 1 } : ReplayRecord).gapLeft ≠ 0 := by decide

/-- The first interval and the last of a DATA form of one bit, the end of the last, and end pending before
the first interval and within one; a report too early of each kind. -/
theorem witness_CodePlayOutAndProfileChange :
    (let c := { playRecord with kind := some .code, profile := 2, bitCount := 1, tickSeen := true }
     let l := replayLane .rPlay c
     let code := workedProfile.dataIntervals c.bitCount.toNat c.value
     l.rep.rstate = .rPlay ∧ l.rep.current = some c ∧ c.kind = some .code ∧ c.endPending = false
       ∧ ((run (.commit 2) staged).table.get 2).fields = workedProfile
       ∧ (c.playing = none ∧ c.tickSeen = true) ∧ code[c.played]? = some 90
       ∧ code[4]? = some 6 ∧ code.length ≤ 5)
    ∧ ({ playRecord with playing := some ⟨true, 4, 0⟩ } : ReplayRecord).playing = some ⟨true, 4, 0⟩
    ∧ ({ playRecord with endPending := true } : ReplayRecord).endPending = true
    ∧ ¬ (playRecord.playing = none ∧ playRecord.tickSeen = true)
    ∧ ¬ ∃ p, playRecord.playing = some p ∧ p.left = 0 := by
  refine ⟨by decide, by decide, by decide, by decide, ?_⟩
  rintro ⟨p, h, -⟩
  cases h

/-! ### Lane commands -/

/-- A lane of mode `m` ready for START. -/
def readyLane (m : LMode) : Lane :=
  { capLane .inactive with
    life := .stopped, regs := { capRegs with lmode := m }, ring := ring 3 .empty }

/-- Configurations at the edges of the table, and each refusal. -/
theorem witness_StartConfigurationAndRefusals :
    (({ readyLane .capture with regs := { capRegs with lgap := 2, maxmark := 1, maxiv := 1 } } :
          Lane).configFit on.table = true
      ∧ ({ readyLane .capture with regs := { capRegs with lgap := 1 } } : Lane).configFit on.table
        = false
      ∧ ({ readyLane .replay with
            regs := { capRegs with lmode := .replay, cper := 1023, chigh := 1022 } } : Lane).configFit
          on.table = true
      ∧ ({ readyLane .meter with regs := { capRegs with lmode := .meter, mcount := 1024 } } :
          Lane).configFit on.table = false)
    ∧ on.ctl.resetPending = false ∧ ((on.lane0 (lifeLane .running)).lane 0).life ≠ .stopped
    ∧ ((State.reset.lane 0).life = .stopped ∧ State.reset.ctl.enable = false)
    ∧ ((on.lane 0).life = .stopped ∧ on.ctl.enable = true ∧ (on.lane 0).configFit on.table = false)
    ∧ (let s := { on.lane0 (readyLane .meter) with
         meters := ⟨{ countingUnit with claim := some 1 }, { countingUnit with claim := some 2 }⟩ }
       (s.lane 0).life = .stopped ∧ (s.lane 0).configFit s.table = true
         ∧ (s.lane 0).regs.lmode = .meter ∧ ∀ u, (s.meters.get u).claim ≠ none) := by
  refine ⟨by decide, by decide, by decide, by decide, by decide, by decide, by decide, by decide, ?_⟩
  intro u
  fin_cases u <;> decide

/-- A capture lane at rest for LGAP and one still arming, a meter lane with METER1 the lowest free unit,
and a replay lane with and without a spare. -/
theorem witness_StartBeginsEngine :
    (∀ m ∈ [LMode.capture, .meter, .replay],
      let s := on.lane0 (readyLane m)
      s.ctl.resetPending = false ∧ (s.lane 0).life = .stopped ∧ s.ctl.enable = true
        ∧ (s.lane 0).configFit s.table = true ∧ (s.lane 0).ring.slot = .empty
        ∧ (s.lane 0).ring.ret = none ∧ (s.lane 0).ring.posted ≠ (s.lane 0).ring.consumed)
    ∧ (let l := readyLane .capture
       l.filteredIdle ∧ l.fe.change = none
         ∧ l.regs.lgap.toNat
           ≤ tickDiff l.regs.div ((15 : Stamp) >>> l.regs.div.toNat) l.fe.lastEdge.tick
         ∧ ¬ l.regs.lgap.toNat
           ≤ tickDiff l.regs.div ((14 : Stamp) >>> l.regs.div.toNat) l.fe.lastEdge.tick)
    ∧ (let p : MeterPool := ⟨{ countingUnit with claim := some 3 }, .free⟩
       (p.get 1).claim = none ∧ (p.get 0).claim ≠ none)
    ∧ (let l := { readyLane .capture with
         fe := { (readyLane .capture).fe with change := some ⟨⟨14, 14⟩, .high⟩ } }
       l.filteredIdle ∧ l.fe.change ≠ none)
    ∧ (∀ d, (readyLane .replay).ring.slot ≠ .held d)
    ∧ (let l := { readyLane .replay with ring := ring 0 .empty }
       l.configFit on.table = true ∧ l.ring.posted = l.ring.consumed ∧ l.ring.ringEmpty = false
         ∧ ({ l.ring with ringEmpty := true } : Ring).ringEmpty = true)
    ∧ ({ readyLane .replay with ring := ring 3 (.held (desc 4)) } : Lane).ring.slot = .held (desc 4)
    ∧ ((desc 4).addr.getLsbD 0 = false ∧ 4 ≤ (desc 4).length.toNat)
    ∧ ((⟨2, .device, 0x2001, 4⟩ : Desc).addr.getLsbD 0 = true ∧ (desc 3).length.toNat < 4) := by
  refine ⟨by decide, by decide, by decide, by decide, ?_, by decide, by decide, by decide,
    by decide⟩
  intro d h
  cases h

theorem witness_StopFinishesOrWaits :
    on.ctl.resetPending = false ∧ (on.lane 0).life = .stopped
    ∧ ((on.lane0 (lifeLane (.stopping .abort))).lane 0).life = .stopping .abort
    ∧ ((on.lane0 (lifeLane (.flushing false))).lane 0).life = .flushing false
    ∧ ((on.lane0 (lifeLane (.faulted .descOwner))).lane 0).life = .faulted .descOwner
    ∧ (let l := (on.lane0 (capLane .listen)).lane 0
       l.life = .running ∧ l.regs.lmode = .capture ∧ l.cap.frame = none ∧ l.cap.records = [])
    ∧ (frameLane true).cap.frame ≠ none
    ∧ ((metering.lane 0).life = .running ∧ (metering.lane 0).regs.lmode = .meter
      ∧ metering.meters.heldBy 0 = some 0 ∧ (metering.meters.get 0).state = .counting
      ∧ ({ countingUnit with state := .armed } : MeterUnit).state = .armed
      ∧ (metering.lane 0).result = none
      ∧ ({ meterLane with result := some shownResult } : Lane).result.isSome = true)
    ∧ (∀ st ∈ [RState.rLoad, .rFill, .rPlay, .rTrail],
      let l := (on.lane0 (replayLane st playRecord)).lane 0
      l.life = .running ∧ l.regs.lmode = .replay ∧ l.rep.current = some playRecord
        ∧ l.rep.rstate = st ∧ playRecord.endPending = false)
    ∧ (doneLane.rep.rstate = .rWait ∧ doneLane.rep.current = none) := by decide

theorem witness_AbortEndsWork :
    on.ctl.resetPending = false ∧ (on.lane 0).life = .stopped
    ∧ ((on.lane0 (lifeLane (.stopping .abort))).lane 0).life = .stopping .abort
    ∧ ((on.lane0 (lifeLane (.faulted .noResponse))).lane 0).life = .faulted .noResponse
    ∧ (((on.lane0 (frameLane true)).lane 0).life = .running
      ∧ ((on.lane0 (frameLane true)).lane 0).regs.lmode = .capture
      ∧ ((on.lane0 (frameLane true)).lane 0).cap.frame = some (openFrame true))
    ∧ ({ frameLane true with life := .stopping .stop } : Lane).life = .stopping .stop
    ∧ ((capLane .listen).cap.records = [] ∧ (capLane .listen).cap.frame = none)
    ∧ ((metering.lane 0).regs.lmode = .meter ∧ metering.meters.heldBy 0 = some 0
      ∧ (metering.meters.get 0).state = .counting
      ∧ ({ countingUnit with state := .result } : MeterUnit).state = .result)
    ∧ (let l := (on.lane0 (replayLane .rPlay playRecord)).lane 0
       l.regs.lmode = .replay ∧ l.rep.current = some playRecord)
    ∧ (doneLane.regs.lmode = .replay ∧ doneLane.rep.current = none)
    ∧ (((on.lane0 (lifeLane (.flushing false))).lane 0).life = .flushing false
      ∧ ∀ d, ((on.lane0 (lifeLane (.flushing false))).lane 0).ring.ret ≠ some ⟨d, .flushed⟩)
    ∧ (let l := { lifeLane (.flushing false) with
         ring := { ring 0 .empty with ret := some ⟨desc 9, .flushed⟩ } }
       l.life = .flushing false ∧ l.ring.ret = some ⟨desc 9, .flushed⟩) := by
  refine ⟨by decide, by decide, by decide, by decide, by decide, by decide, by decide, by decide,
    by decide, by decide, ⟨by decide, ?_⟩, by decide⟩
  intro d h
  cases h

theorem witness_SkipAndFlush :
    (on.ctl.resetPending = false ∧ (0 : BitVec 12) = 0 ∧ 1023 < (1024 : BitVec 12).toNat
    ∧ ((on.lane0 (replayLane .rWait playRecord)).lane 0).regs.lmode = .replay
    ∧ (1 ≤ (1 : BitVec 12).toNat ∧ (1023 : BitVec 12).toNat ≤ 1023
      ∧ (on.lane 0).regs.lmode ≠ .replay ∧ (on.lane 0).life ≠ .running)
    ∧ (((on.lane0 (capLane .listen)).lane 0).regs.lmode ≠ .replay
      ∧ ((on.lane0 (capLane .listen)).lane 0).life = .running))
    ∧ ((on.lane0 (capLane .listen)).lane 0).life ≠ .stopped
    ∧ ((on.lane 0).life = .stopped ∧ ¬ 2 ≤ (on.lane 0).ring.rsize.toNat)
    ∧ ¬ ({ ring 0 .empty with rsize := 257 } : Ring).rsize.toNat ≤ 256
    ∧ (let l := (on.lane0 { idleLane with ring := ring 0 (.held (desc 9)) }).lane 0
       l.life = .stopped ∧ 2 ≤ l.ring.rsize.toNat ∧ l.ring.rsize.toNat ≤ 256
         ∧ l.ring.slot = .held (desc 9))
    ∧ ((ring 1 .empty).slot = .empty ∧ (ring 1 .empty).ret = none
      ∧ (ring 1 .empty).posted ≠ (ring 1 .empty).consumed)
    ∧ (ring 1 (.fetching 0 true [])).slot.isFetching = true
    ∧ ({ ring 0 .empty with ret := some ⟨desc 9, .badBuffer⟩ } : Ring).ret ≠ none
    ∧ (ring 0 .empty).posted = (ring 0 .empty).consumed := by decide

theorem witness_RecoverClearsFault :
    on.ctl.resetPending = false
    ∧ ((on.lane0 (lifeLane (.faulted .descOwner))).lane 0).life = .faulted .descOwner
    ∧ ∀ c, (on.lane 0).life ≠ .faulted c := by
  refine ⟨rfl, rfl, ?_⟩
  intro c h
  cases h

theorem witness_LaneResetValues :
    metering.ctl.resetPending = false
    ∧ ((metering.meters.get 0).claim = some 0 ∧ (metering.meters.get 1).claim ≠ some 0)
    ∧ ((metering.owned (burst .fetch 1 3)).bus.burst = some (burst .fetch 1 3)
      ∧ (burst .fetch 1 3).lane = 0 ∧ (burst .fetch 1 3).lane ≠ 7) := by decide

/-! ### The ring controller -/

/-- d above RSIZE and equal to it, d 0 with and without a fetch, and a value that ends a flush; a ring free
to be re-initialised, and each thing that keeps it. -/
theorem witness_RingRegistersWritten :
    on.ctl.resetPending = false
    ∧ ((4 : Word) < (5 : Word) - (ring 0 .empty).consumed
      ∧ ¬ (ring 0 .empty).rsize < (4 : Word) - (ring 0 .empty).consumed)
    ∧ ((0 : Word) - (ring 1 (.fetching 0 false [])).consumed = 0
      ∧ (ring 1 (.fetching 0 false [])).slot.isFetching = true)
    ∧ (let l := (on.lane0 (lifeLane (.flushing false))).lane 0
       ¬ l.ring.rsize < (0 : Word) - l.ring.consumed ∧ l.ring.slot.isFetching = false
         ∧ l.life.isFlushing = true ∧ l.ring.slot = .empty ∧ l.ring.ret = none
         ∧ (0 : Word) = l.ring.consumed)
    ∧ (let l := (on.lane0 (capLane .listen)).lane 0
       l.life.isFlushing = false ∧ ¬ l.ring.rsize < (4 : Word) - l.ring.consumed)
    ∧ ((on.lane 0).life = .stopped ∧ (on.lane 0).ring.slot.isFetching = false
      ∧ (on.lane 0).ring.ret = none)
    ∧ ((on.lane0 (capLane .listen)).lane 0).life ≠ .stopped
    ∧ ({ ring 0 .empty with ret := some ⟨desc 9, .badBuffer⟩ } : Ring).ret ≠ none
    ∧ Instr.rsizeWrite 0 4 ∈ [Instr.rbaseWrite 0 true 4, .rsizeWrite 0 4] := by decide

/-! ### The bus master -/

/-- A lane with and without a burst of it in progress; a lane in each life; a drain at 8 and at 7 leading
intervals, open and closed; a result at each of its bursts, and a replay record filling, loading and
done; the bounds of URGENT. -/
theorem witness_RequestsPresented :
    ((on.owned (burst .drain 0 8)).bus.burst = some (burst .drain 0 8)
      ∧ (burst .drain 0 8).lane = 0 ∧ (burst .drain 0 8).lane ≠ 1)
    ∧ ((capLane .listen).life.active = true ∧ (lifeLane (.flushing true)).life.isFlushing = true
      ∧ idleLane.life = .stopped ∧ (lifeLane (.faulted .descOwner)).life = .faulted .descOwner)
    ∧ (idleLane.regs.lmode = .none ∧ (capLane .listen).regs.lmode = .capture
      ∧ (capLane .listen).cap.records = [] ∧ (frameLane true).cap.records = openRecord :: [])
    ∧ (8 ≤ leading (List.replicate 8 (.interval 4) ++ [.endMarker])
      ∧ ¬ 8 ≤ leading (List.replicate 7 (.interval 4) ++ [.endMarker]))
    ∧ (meterLane.regs.lmode = .meter ∧ meterLane.result = none
      ∧ ({ meterLane with result := some shownResult } : Lane).result = some shownResult)
    ∧ ((replayLane .rLoad playRecord).regs.lmode = .replay
      ∧ (replayLane .rLoad playRecord).rep.current = some playRecord ∧ doneLane.rep.current = none)
    ∧ (({ frameLane true with fifo := List.replicate 24 (.interval 4) } : Lane).urgent = true
      ∧ ({ frameLane true with fifo := List.replicate 23 (.interval 4) } : Lane).urgent = false
      ∧ (let l (k : Nat) : Lane := { replayLane .rPlay { playRecord with count := 21 } with
           fifo := List.replicate k (.interval 4) }
         (l 8).urgent = true ∧ (l 9).urgent = false)) := by decide

/-- An IDLE bus beside lanes at work that present no request. -/
theorem witness_IdleBusMeansNoRequest :
    requestRaised ((on.lane0 (frameLane true)).setLane 1 meterLane)
    ∧ everyLane faultedClear (on.lane0 (lifeLane (.faulted .descOwner))) := by
  refine ⟨fun _ _ => by decide, ?_⟩
  intro n c _
  fin_cases n <;> rfl

theorem witness_GrantChoosesFromPointer :
    (let s := grantA
     s.bus.bstate = .requesting ∧ (s.request 3).isSome = true
       ∧ (∀ m, ¬ ((s.request m).isSome = true ∧ (s.lane m).urgent = true))
       ∧ ∀ m : LaneId, (m - s.bus.ptr).val < ((3 : LaneId) - s.bus.ptr).val →
           ¬ (s.request m).isSome = true)
    ∧ (let s := grantA.setLane 1 { frameLane true with fifo := List.replicate 24 (.interval 4) }
       (s.request 1).isSome = true ∧ (s.lane 1).urgent = true
         ∧ ∀ m : LaneId, (m - s.bus.ptr).val < ((1 : LaneId) - s.bus.ptr).val →
             ¬ ((s.request m).isSome = true ∧ (s.lane m).urgent = true))
    ∧ ((grantA.lane 6).ring.slot = .fetching 0 false []
      ∧ (grantA.request 6).map Request.purpose = some .fetch)
    ∧ (let s := { on with bus := { on.bus with bstate := .requesting } }
       s.bus.bstate = .requesting ∧ ∀ m, ¬ (s.request m).isSome = true)
    ∧ on.bus.bstate ≠ .requesting := by decide

/-- Two words left, of every purpose; an orphan; no burst. -/
theorem witness_WordAcknowledged :
    on.bus.burst = none
    ∧ (∀ p ∈ [Purpose.fetch, .drain, .decode, .header, .writeback, .fill, .load],
      let s := (on.lane0 (frameLane true)).owned (burst p 0 2)
      s.ctl.resetPending = false ∧ s.bus.bstate = .owned (burst p 0 2)
        ∧ (burst p 0 2).orphan = false ∧ 1 < (burst p 0 2).remaining)
    ∧ ({ burst .fetch 0 1 with orphan := true } : Burst).orphan = true
    ∧ (ring 1 (.fetching 0 true [0x8000])).slot = .fetching 0 true [0x8000]
    ∧ (replayLane .rFill playRecord).rep.current = some playRecord
    ∧ (capLane .listen).rep.current = none
    ∧ ((frameLane true).fifo = .interval 3 :: .interval 4 :: []
      ∧ (frameLane true).cap.records = openRecord :: []) := by decide

/-- One word left, of each purpose; a FILL word that reaches R97's threshold; a LOAD of header words and of
data; a drained interval with none, one and two end markers behind it; a result's two headers. -/
theorem witness_LastWordEndsBurst :
    (∀ p ∈ [Purpose.drain, .decode, .header, .fill, .load],
      let s := (on.lane0 (frameLane true)).owned (burst p 7 1)
      s.ctl.resetPending = false ∧ s.bus.bstate = .owned (burst p 7 1)
        ∧ (burst p 7 1).orphan = false ∧ (burst p 7 1).remaining ≤ 1
        ∧ (burst p 7 1).purpose ≠ .fetch ∧ (burst p 7 1).purpose ≠ .writeback)
    ∧ ((replayLane .rFill playRecord).rep.current = some playRecord
      ∧ min playRecord.count.toNat 16 ≤ (replayLane .rFill playRecord).fifo.length + 1
      ∧ idleLane.rep.current = none)
    ∧ ((ReplayRecord.taken (desc 20)).kind = none ∧ playRecord.kind ≠ none
      ∧ (replayLane .rLoad playRecord).rep.rstate = .rLoad)
    ∧ ((frameLane true).fifo = .interval 3 :: [.interval 4]
      ∧ (frameLane true).cap.records = openRecord :: []
      ∧ [FifoEntry.interval 4].head? ≠ some .endMarker
      ∧ [FifoEntry.endMarker] = .endMarker :: [] ∧ openRecord.step = .drain
      ∧ ([] : List FifoEntry).head? ≠ some .endMarker
      ∧ [openRecord] = [openRecord])
    ∧ (shownResult.step = .header1
      ∧ ({ shownResult with step := .header2 } : MeterResult).step ≠ .header1
      ∧ meterLane.regs.lmode = .meter) := by decide

theorem witness_WordsWritten :
    (let r := { openRecord with close := some .gap, decoded := some ⟨2, false, 3, 5⟩ }
     let l := { frameLane false with cap := { (frameLane false).cap with records := [r] } }
     l.cap.records = r :: [] ∧ l.regs.lmode = .capture ∧ r.close = some .gap
       ∧ r.decoded = some ⟨2, false, 3, 5⟩)
    ∧ (frameLane true).fifo = .interval 3 :: [.interval 4]
    ∧ (let l := { meterLane with result := some shownResult }
       l.result = some shownResult ∧ l.regs.lmode = .meter ∧ shownResult.step ≠ .header2)
    ∧ (doneLane.rep.finished = some doneRecord ∧ doneLane.regs.lmode = .replay)
    ∧ ({ ring 0 .empty with ret := some ⟨desc 9, .flushed⟩ } : Ring).ret
        = some ⟨desc 9, .flushed⟩ := by decide

/-- Owner DEVICE on a working lane, on a flushing one and on a waiting replay engine, at the shortest
length it takes and one word short; owner HOST; another word cycle. -/
theorem witness_FetchCompletes :
    (let l := { capLane .listen with ring := ring 3 (.fetching 0 true [0x8000, 0x2000, 0x0012]) }
     let s := (on.lane0 l).owned (burst .fetch 3 1)
     s.ctl.resetPending = false ∧ s.bus.bstate = .owned (burst .fetch 3 1)
       ∧ (burst .fetch 3 1).orphan = false ∧ (burst .fetch 3 1).purpose = .fetch
       ∧ (burst .fetch 3 1).done = 3 ∧ (burst .fetch 3 1).remaining ≤ 1
       ∧ (s.lane 0).ring.slot = .fetching 0 true [0x8000, 0x2000, 0x0012]
       ∧ (s.lane 0).life.isFlushing = false ∧ ¬ (s.lane 0).runs .replay)
    ∧ (0x8000 : Word).getLsbD 15 = true ∧ (0x7FFF : Word).getLsbD 15 = false
    ∧ (let l := { frameLane true with ring := ring 3 (.fetching 0 true [0x0000, 0x2000, 0x0012]) }
       let s := (on.lane0 l).owned (burst .fetch 3 1)
       (s.lane 0).cap.records = [openRecord] ∧ (s.meters.get 0).claim ≠ some 0
         ∧ (metering.meters.get 0).claim = some 0)
    ∧ (lifeLane (.flushing true)).life.isFlushing = true
    ∧ (let l := { replayLane .rWait playRecord with rep := ⟨.rWait, none, none⟩ }
       l.runs .replay ∧ l.life = .running ∧ l.rep.rstate = .rWait ∧ l.rep.finished = none)
    ∧ ((0x0012 : Word).extractLsb' 0 8 ++ (0x2000 : Word)).getLsbD 0 = false
    ∧ ((0x0012 : Word).extractLsb' 0 8 ++ (0x2001 : Word)).getLsbD 0 = true
    ∧ 4 ≤ ((4 : Word).extractLsb' 0 12).toNat ∧ ((3 : Word).extractLsb' 0 12).toNat < 4
    ∧ (burst .drain 0 8).purpose ≠ .fetch ∧ (burst .fetch 2 2).done ≠ 3 := by decide

/-- The write-back of a record, of a result, of a replay record and of the return slot. -/
theorem witness_WriteBackHandsBack :
    (let s := on.owned (burst .writeback 1 1)
     s.ctl.resetPending = false ∧ s.bus.bstate = .owned (burst .writeback 1 1)
       ∧ (burst .writeback 1 1).orphan = false ∧ (burst .writeback 1 1).purpose = .writeback
       ∧ (burst .writeback 1 1).done = 1 ∧ (burst .writeback 1 1).remaining ≤ 1
       ∧ (burst .writeback 1 1).forRing = false
       ∧ ({ burst .writeback 1 1 with forRing := true } : Burst).forRing = true)
    ∧ (let l := frameLane true
       l.regs.lmode = .capture ∧ l.cap.records = openRecord :: [] ∧ l.life = .running)
    ∧ (let l := { capLane .holdoff with
         life := .stopping .stop, cap := { (capLane .holdoff).cap with records := [openRecord] } }
       l.life = .stopping .stop ∧ l.cap.frame = none ∧ l.cap.records = openRecord :: [])
    ∧ (let l := { meterLane with result := some shownResult }
       l.regs.lmode = .meter ∧ l.result = some shownResult ∧ l.life = .running
         ∧ metering.meters.heldBy 0 = some 0 ∧ (metering.meters.get 0).state ≠ .result
         ∧ ({ countingUnit with state := .result } : MeterUnit).state = .result)
    ∧ ({ meterLane with life := .stopping .abort } : Lane).life = .stopping .abort
    ∧ (let f : FinishedRecord := ⟨desc 20, some .intervals, .ok, 1⟩
       let l := { replayLane .rWait playRecord with rep := ⟨.rWait, none, some f⟩ }
       l.regs.lmode = .replay ∧ l.rep.finished = some f ∧ l.rep.current = none
         ∧ l.life = .running ∧ l.rep.rstate = .rWait ∧ l.ring.slot = .empty
         ∧ l.ring.posted = l.ring.consumed ∧ l.ring.ringEmpty = false)
    ∧ ({ ring 0 .empty with ringEmpty := true } : Ring).ringEmpty = true
    ∧ ({ replayLane .rWait playRecord with life := .stopping .stop } : Lane).life = .stopping .stop
    ∧ (let l := { capLane .listen with
         ring := { ring 3 .empty with ret := some ⟨desc 8, .badBuffer⟩ } }
       l.ring.ret = some ⟨desc 8, .badBuffer⟩ ∧ l.life.isFlushing = false
         ∧ l.life.fetches = true ∧ l.ring.slot = .empty ∧ l.ring.posted ≠ l.ring.consumed)
    ∧ (let l := { readyLane .capture with
         ring := { ring 3 .empty with ret := some ⟨desc 8, .badBuffer⟩ } }
       l.ring.ret = some ⟨desc 8, .badBuffer⟩ ∧ l.life.isFlushing = false
         ∧ l.life.fetches = false)
    ∧ (let l := { doneLane with ring := ring 1 (.held (desc 4)) }
       l.ring.slot = .held (desc 4) ∧ (desc 4).addr.getLsbD 0 = false ∧ 4 ≤ (desc 4).length.toNat
         ∧ (desc 3).length.toNat < 4)
    ∧ (let l := { lifeLane (.flushing false) with
         ring := { ring 0 .empty with ret := some ⟨desc 9, .flushed⟩ } }
       l.ring.ret = some ⟨desc 9, .flushed⟩ ∧ l.life = .flushing false ∧ l.ring.slot = .empty
         ∧ l.ring.posted = l.ring.consumed ∧ (ring 1 .empty).posted ≠ (ring 1 .empty).consumed)
    ∧ (lifeLane (.flushing true)).life = .flushing true
    ∧ (burst .fill 1 1).purpose ≠ .writeback ∧ (burst .writeback 0 2).done ≠ 1 := by decide

/-- NO_RESPONSE with the limit exactly passed and one clock short; ERROR_REPLY; an orphan; the slot held
and not; no burst. -/
theorem witness_FailedCycleFaultsLane :
    (let s := (on.lane0 (frameLane true)).owned (late .drain 1024)
     s.ctl.resetPending = false ∧ s.bus.bstate = .owned (late .drain 1024)
       ∧ s.bus.fault.valid = false ∧ (late .drain 1024).orphan = false
       ∧ (late .drain 1024).cycle.limit.toNat ≤ (late .drain 1024).cycle.elapsed
       ∧ (s.lane 0).ring.slot = .held (desc 14) ∧ (s.meters.get 0).claim ≠ some 0)
    ∧ ((on.owned (late .drain 1023)).bus.bstate = .owned (late .drain 1023)
      ∧ (late .drain 1023).cycle.elapsed < (late .drain 1023).cycle.limit.toNat)
    ∧ on.bus.burst = none
    ∧ ({ FaultRecord.cleared with valid := true } : FaultRecord).valid = true
    ∧ ({ burst .drain 2 6 with orphan := true } : Burst).orphan = true
    ∧ (∀ d, (ring 1 (.fetching 0 true [])).slot ≠ .held d)
    ∧ (metering.meters.get 0).claim = some 0 := by
  refine ⟨by decide, by decide, by decide, by decide, by decide, ?_, by decide⟩
  intro d h
  cases h

/-! ### What every step keeps, away from reset -/

/-- A table with a VALID entry among EMPTY ones, a pool with one unit claimed, and a queue with 32 entries,
the newest OVERFLOW. -/
theorem witness_TablePoolAndQueueStayRight :
    ((∀ i, profileOk ((run (.commit 2) staged).table.get i))
      ∧ ((run (.commit 2) staged).table.get 2).valid = true)
    ∧ (poolOk metering ∧ metering.meters.meter0.claim = some 0)
    ∧ (let s := queued (queueOf 31 ⟨.overflow, none, 65535⟩)
     queueOk s.queue ∧ noAdjacentOverflow s.queue.entries = true) := by
  refine ⟨by decide, ⟨⟨?_, ?_⟩, rfl⟩, by decide⟩ <;> decide

/-- A capture lane at work with a full ring. -/
def workingState : State :=
  (on.lane0 { frameLane true with ring := ring 4 (.held (desc 14)) }).setLane 1
    { meterLane with ring := ring 1 (.fetching 0 false []) }

theorem witness_SettingsAndRingsStayRight :
    timeOk workingState ∧ enabledWhileActive workingState ∧ 16 ≤ workingState.bus.resplim.toNat
    ∧ everyLane (fun l => ringOk l.ring) workingState := by
  refine ⟨by decide, ?_, by decide, ?_⟩ <;> intro n <;> fin_cases n <;> decide

/-- Two open records, the newer carrying one dropped frame. -/
def twoRecords : State :=
  on.lane0 { frameLane true with
    seq := 3
    cap := { (frameLane true).cap with
      records := [{ openRecord with close := some .gap },
        { openRecord with seq := 2, droppedBefore := 1 }] } }

theorem witness_RecordsStayNumbered :
    everyLane (fun l => workOk l ∧ recordsOk l) twoRecords := by
  intro n
  fin_cases n <;> exact ⟨by decide, by decide, by decide, by simp [twoRecords, on, State.lane0,
    State.setLane, State.lane, Eight.set, Eight.get, State.reset, Eight.fill, Lane.afterReset, Assembler.reset,
    frameLane, capLane, idleLane, openRecord, Record.open]⟩

/-- A kept frame with one FIFO entry left for its end marker, and a FILL burst with room for exactly
its words. -/
def fillingState : State :=
  let fill : Lane := { replayLane .rPlay { playRecord with count := 21, fetched := 8 } with
    fifo := List.replicate 24 (.interval 4) }
  let keep : Lane := { frameLane true with fifo := List.replicate 31 (.interval 4) }
  (on.setLane 1 keep |>.lane0 fill).owned (burst .fill 0 8)

theorem witness_FifosStayBounded :
    everyLane (fun l => workOk l ∧ fifoOk l) fillingState ∧ fillRoomOk fillingState := by
  refine ⟨?_, ?_⟩
  · intro n
    fin_cases n <;> decide
  · intro b h
    cases h
    intro _ _
    decide

end Sys2Proof.Tests
end

section
/-! SUPPORT. What every step of a lane's engine and of its ring controller keeps: the pin, the configuration
registers and the front end; a lane not at work does not come to work; and the ring stays right. One lemma
per operation, so that no invariant about these is proved by unfolding the engines again. -/

namespace Sys2Proof.Machine

open Sys2Proof.Safety

/-- A step of lane `l`'s engine or ring controller that leaves `k`. -/
structure EngineStep (l k : Lane) : Prop where
  line : k.line = l.line
  regs : k.regs = l.regs
  fe : k.fe = l.fe
  work : k.life.active = true → l.life.active = true
  ring : ringOk l.ring → ringOk k.ring

theorem EngineStep.refl (l : Lane) : EngineStep l l := ⟨rfl, rfl, rfl, id, id⟩

/-- One step after another. -/
theorem EngineStep.after {l m k : Lane} (g : EngineStep m k) (h : EngineStep l m) :
    EngineStep l k :=
  ⟨g.line.trans h.line, g.regs.trans h.regs, g.fe.trans h.fe, h.work ∘ g.work, g.ring ∘ h.ring⟩

/-- A change of the ring controller alone. -/
theorem EngineStep.ofRing (l : Lane) (r : Ring) (h : ringOk l.ring → ringOk r) :
    EngineStep l { l with ring := r } := ⟨rfl, rfl, rfl, id, h⟩

/-- A change of the assembler after a step. -/
theorem EngineStep.withCap {l k : Lane} (h : EngineStep l k) (c : Assembler) :
    EngineStep l { k with cap := c } := ⟨h.line, h.regs, h.fe, h.work, h.ring⟩

/-! ## The ring controller -/

/-- A ring whose slot comes to FETCHING by no step stays right while its counts and its base stay. -/
theorem ringOk_of_slot {r q : Ring} (h : ringOk r) (hp : q.posted = r.posted) (hc : q.consumed = r.consumed)
    (hs : q.rsize = r.rsize) (hb : q.rbase = r.rbase)
    (hf : q.slot.isFetching = true → r.slot.isFetching = true) : ringOk q := by
  obtain ⟨hsize, hfetch, hbase⟩ := h
  unfold ringOk
  rw [hp, hc, hs, hb]
  exact ⟨hsize, hfetch ∘ hf, hbase⟩

theorem Ring.withdraw_ok {r : Ring} (h : ringOk r) : ringOk r.withdraw := by
  obtain ⟨_, hw⟩ | hw := r.withdraw_cases
  · rw [hw]; exact ringOk_of_slot h rfl rfl rfl rfl (by simp [Slot.isFetching])
  · rwa [hw]

theorem Ring.bind_ok {r : Ring} (minimum : Nat) (h : ringOk r) : ringOk (r.bind minimum).2 := by
  obtain ⟨d, _, _, hb⟩ | ⟨d, _, _, hb⟩ | ⟨_, hb⟩ := r.bind_cases minimum <;> rw [hb]
  · exact ringOk_of_slot h rfl rfl rfl rfl (by simp [Slot.isFetching])
  · exact ringOk_of_slot h rfl rfl rfl rfl (by simp [Slot.isFetching])
  · exact h

theorem Ring.grantFetch_ok {r : Ring} (h : ringOk r) : ringOk r.grantFetch := by
  unfold Ring.grantFetch
  split
  · next hs => exact ringOk_of_slot h rfl rfl rfl rfl (by simp [hs, Slot.isFetching])
  · exact h

theorem Ring.beginFlush_ok {r : Ring} (h : ringOk r) : ringOk r.beginFlush := by
  unfold Ring.beginFlush
  split
  · exact ringOk_of_slot h rfl rfl rfl rfl (by simp [Slot.isFetching])
  · exact ringOk_of_slot h rfl rfl rfl rfl id

theorem Ring.fault_ok {r : Ring} (h : ringOk r) : ringOk r.fault := by
  refine ringOk_of_slot h rfl rfl rfl rfl ?_
  unfold Ring.fault
  cases r.slot <;> simp [Slot.isFetching]

theorem ringOk_reset : ringOk Ring.reset := by decide

theorem Lane.requestFetch_step (l : Lane) : EngineStep l l.requestFetch := by
  obtain ⟨⟨_, _, _, hne⟩, h⟩ | ⟨_, h⟩ := l.requestFetch_cases <;> rw [h]
  · exact .ofRing l _ fun ⟨hsize, _, hbase⟩ => ⟨hsize, fun _ => hne, hbase⟩
  · exact .refl l

theorem Lane.reportDry_step (l : Lane) : EngineStep l l.reportDry.lane := by
  obtain ⟨_, _, h⟩ | ⟨_, h⟩ := l.reportDry_cases <;> rw [h]
  · exact .ofRing l _ (fun h => ringOk_of_slot h rfl rfl rfl rfl id)
  · exact .refl l

theorem Lane.becomeStopped_step (l : Lane) : EngineStep l l.becomeStopped :=
  ⟨rfl, rfl, rfl, fun h => (nomatch h), Ring.withdraw_ok⟩

theorem Lane.finishStopping_step (l : Lane) : EngineStep l l.finishStopping.lane := by
  obtain ⟨e, _, h⟩ | ⟨_, h⟩ := l.finishStopping_cases <;> rw [h]
  · exact l.becomeStopped_step
  · exact .refl l

theorem Lane.checkFlush_step (l : Lane) : EngineStep l l.checkFlush.lane := by
  obtain ⟨_, _, _, _, h⟩ | ⟨_, h⟩ := l.checkFlush_cases <;> rw [h]
  · exact l.becomeStopped_step
  · exact .refl l

theorem Lane.returnDone_step (l : Lane) : EngineStep l l.returnDone.lane := by
  obtain ⟨_, h⟩ | ⟨t, _, l1, rfl, ⟨_, h⟩ | ⟨_, h⟩⟩ := l.returnDone_cases <;> rw [h]
  · exact .refl l
  · exact (Lane.becomeStopped_step _).after
      (.ofRing l _ fun h => ringOk_of_slot h rfl rfl rfl rfl id)
  · exact (Lane.checkFlush_step _).after ((Lane.requestFetch_step _).after
      (.ofRing l _ fun h => ringOk_of_slot h rfl rfl rfl rfl id))

theorem Lane.fetchWord_step (l : Lane) (data : Word) : EngineStep l (l.fetchWord data) := by
  unfold Lane.fetchWord
  split
  · next hs =>
      exact .ofRing l _ (fun h => ringOk_of_slot h rfl rfl rfl rfl (by simp [hs, Slot.isFetching]))
  · exact .refl l

/-- With a descriptor posted, one more may be consumed (R131). -/
theorem posted_sub_consumed_succ {p c r : Word} (hne : p ≠ c) (h : p - c ≤ r) :
    p - (c + 1) ≤ r := by
  bv_omega

/-- A ring whose descriptor has come stays right: one was posted, for the slot was FETCHING (R137). -/
theorem ringOk_consume {r q : Ring} (hf : r.slot.isFetching = true) (hp : q.posted = r.posted)
    (hc : q.consumed = r.consumed + 1) (hs : q.rsize = r.rsize) (hb : q.rbase = r.rbase)
    (hn : q.slot.isFetching = false) (h : ringOk r) : ringOk q := by
  obtain ⟨hsize, hfetch, hbase⟩ := h
  unfold ringOk
  rw [hp, hc, hs, hb]
  exact ⟨posted_sub_consumed_succ (hfetch hf) hsize, fun k => by simp [hn] at k, hbase⟩

theorem Lane.takeFetched_step (l : Lane) (d d' : Desc) (h : l.fetchedDesc = some d') :
    EngineStep l (l.takeFetched d) := by
  obtain ⟨i, g, w0, w1, w2, w3, hs, _⟩ := l.fetchedDesc_some d' h
  have hf : l.ring.slot.isFetching = true := by simp [hs, Slot.isFetching]
  unfold Lane.takeFetched
  split <;> exact .ofRing l _ (ringOk_consume hf rfl rfl rfl rfl rfl)

theorem Lane.writePosted_step (l : Lane) (w : Word) : EngineStep l (l.writePosted w).lane := by
  obtain ⟨_, h⟩ | ⟨hok, h⟩ := l.writePosted_cases w <;> rw [h]
  · exact .ofRing l _ (fun h => ringOk_of_slot h rfl rfl rfl rfl id)
  · refine (Lane.checkFlush_step _).after ((Lane.requestFetch_step _).after (.ofRing l _ ?_))
    rintro ⟨_, _, hbase⟩
    obtain ⟨hsize, hfetch⟩ := not_or.mp hok
    refine ⟨BitVec.not_lt.mp hsize, fun hf hw => hfetch ⟨?_, hf⟩, hbase⟩
    rw [show w = l.ring.consumed from hw, BitVec.sub_self]
    rfl

/-! ## The frame assembler -/

theorem Lane.settleMarkers_step (l : Lane) : EngineStep l l.settleMarkers :=
  ⟨rfl, rfl, rfl, id, id⟩

theorem Lane.mapOldest_step (l : Lane) (f : Record → Record) : EngineStep l (l.mapOldest f) := by
  obtain ⟨_, h⟩ | ⟨r, rs, _, h⟩ := l.mapOldest_cases f <;> rw [h]
  · exact .refl l
  · exact ⟨rfl, rfl, rfl, id, id⟩

theorem Lane.closeFrame_step (l : Lane) (table : Eight Profile) (f : Frame) (why : Close) :
    EngineStep l (l.closeFrame table f why) := by
  rw [l.closeFrame_eq]
  exact ⟨rfl, rfl, rfl, id, id⟩

/-- A STUCK close is a close of the lane with its mark counted (R33). -/
theorem Lane.closeStuck_step (l : Lane) (table : Eight Profile) (f : Frame) :
    EngineStep l (l.closeStuck table f) := by
  have change (k : Lane) (g : Frame) (h : EngineStep l k) :
      EngineStep l (k.closeFrame table g .stuck) := (k.closeFrame_step table g .stuck).after h
  unfold Lane.closeStuck
  dsimp only
  split
  · split <;> exact change _ _ ⟨rfl, rfl, rfl, id, id⟩
  · exact change l _ (.refl l)

theorem Lane.beginFrame_step (l : Lane) (table : Eight Profile) (e : EdgeStamp) :
    EngineStep l (l.beginFrame table e).lane := by
  have hbind := Ring.bind_ok (r := l.ring) l.regs.captureMinimum
  unfold Lane.beginFrame
  dsimp only
  split
  · exact ⟨rfl, rfl, rfl, id, id⟩
  · split
    · exact ⟨rfl, rfl, rfl, id, id⟩
    · split
      · next d ring hb =>
        rw [hb] at hbind
        exact (Lane.requestFetch_step _).after ⟨rfl, rfl, rfl, id, hbind⟩
      · next ring hb =>
        rw [hb] at hbind
        exact (Lane.reportDry_step _).after ⟨rfl, rfl, rfl, id, hbind⟩

theorem Lane.judgeMarkStart_step (l : Lane) (table : Eight Profile) (now : Stamp) :
    EngineStep l (l.judgeMarkStart table now) := by
  unfold Lane.judgeMarkStart
  split
  · exact .refl l
  · split
    · exact l.closeFrame_step _ _ _
    · split
      · exact l.closeStuck_step _ _
      · exact .refl l

theorem Lane.checkFull_step (l : Lane) (table : Eight Profile) (f : Frame) :
    EngineStep l (l.checkFull table f) := by
  unfold Lane.checkFull
  split
  · exact l.closeFrame_step _ _ _
  · exact ⟨rfl, rfl, rfl, id, id⟩

theorem Lane.endInterval_step (l : Lane) (table : Eight Profile) (active : Bool) (e : EdgeStamp)
    (f : Frame) : EngineStep l (l.endInterval table active e f) := by
  unfold Lane.endInterval
  dsimp only
  split
  · split
    · split
      · exact (Lane.checkFull_step _ _ _).after ⟨rfl, rfl, rfl, id, id⟩
      · exact l.closeFrame_step _ _ _
    · exact (Lane.checkFull_step _ _ _).after ⟨rfl, rfl, rfl, id, id⟩
  · exact l.checkFull_step _ _

theorem Lane.finishCapture_step (l : Lane) : EngineStep l l.finishCapture.lane := by
  obtain ⟨e, _, _, _, _, h⟩ | h := l.finishCapture_cases <;> rw [h]
  · exact (Lane.becomeStopped_step _).after ⟨rfl, rfl, rfl, id, id⟩
  · exact .refl l

/-- The assembler's work after a step of the lane that ends in its finish (R43). -/
theorem EngineStep.thenFinish {l k : Lane} (h : EngineStep l k) :
    EngineStep l k.finishCapture.lane := k.finishCapture_step.after h

theorem Lane.captureEdge_step (l : Lane) (table : Eight Profile) (now : Stamp) (active : Bool)
    (e : EdgeStamp) : EngineStep l (l.captureEdge table now active e).lane := by
  have h0 : EngineStep l { l with cap := { l.cap with waiting := false } } :=
    ⟨rfl, rfl, rfl, id, id⟩
  unfold Lane.captureEdge
  dsimp only
  split
  · split
    · exact (Lane.judgeMarkStart_step _ _ _).after ((Lane.beginFrame_step _ _ _).after h0)
    · exact h0
  · refine EngineStep.thenFinish ?_
    split
    · split
      · exact (Lane.closeStuck_step _ _ _).after ((Lane.endInterval_step _ _ _ _ _).after h0)
      · exact (Lane.endInterval_step _ _ _ _ _).after h0
    · exact (Lane.endInterval_step _ _ _ _ _).after h0
  · exact h0

/-- A limit of the open frame that takes effect: STUCK for a mark, GAP for a space (R32, R33). -/
def Lane.limitClose (l : Lane) (table : Eight Profile) (f : Frame) : Lane :=
  if f.inMark then l.closeStuck table f else l.closeFrame table f .gap

/-- A limit point of the open frame waits for a pending change, or closes the frame (R15). -/
theorem Lane.reachFramePoint_eq (l : Lane) (table : Eight Profile) (f : Frame) :
    l.reachFramePoint table f
      = if l.fe.change.isSome then { l with cap := { l.cap with waiting := true } }.quiet
        else (l.limitClose table f).finishCapture := rfl

theorem Lane.limitClose_step (l : Lane) (table : Eight Profile) (f : Frame) :
    EngineStep l (l.limitClose table f) := by
  unfold Lane.limitClose
  split
  · exact l.closeStuck_step _ _
  · exact l.closeFrame_step _ _ _

/-- The frame with one more glitch absorbed in it (R29). -/
def Frame.glitched (f : Frame) : Frame := { f with glitches := min 255 (f.glitches + 1) }

/-- What an absorbed change does at the assembler (R15, R20, R29): it takes a decision of the open frame
that waits; it is counted in a frame with none waiting; it ends an idle wait that waits for it; or it is
discarded. -/
theorem Lane.captureGlitch_cases (l : Lane) (table : Eight Profile) :
    (∃ f, l.cap.cstate = .inFrame ∧ l.cap.frame = some f ∧ l.cap.waiting = true
        ∧ l.captureGlitch table = (Lane.limitClose { l with cap := { l.cap with
            waiting := false, frame := some f.glitched } } table f.glitched).finishCapture)
    ∨ (∃ f, l.cap.cstate = .inFrame ∧ l.cap.frame = some f ∧ l.cap.waiting = false
        ∧ l.captureGlitch table = { l with cap := { l.cap with
            waiting := false, frame := some f.glitched } }.quiet)
    ∨ ((l.cap.cstate = .arming ∨ l.cap.cstate = .holdoff) ∧ l.cap.waiting = true
        ∧ l.captureGlitch table = { l with cap := { l.cap with
            waiting := false, cstate := .listen } }.quiet)
    ∨ ((l.cap.cstate ≠ .inFrame ∨ l.cap.frame = none)
        ∧ ((l.cap.cstate = .arming ∨ l.cap.cstate = .holdoff) → l.cap.waiting = false)
        ∧ l.captureGlitch table = { l with cap := { l.cap with waiting := false } }.quiet) := by
  unfold Lane.captureGlitch
  cases l.cap.cstate with
  | inFrame =>
    cases l.cap.frame with
    | none => exact .inr (.inr (.inr ⟨.inr rfl, by simp, rfl⟩))
    | some f =>
      cases l.cap.waiting with
      | true => exact .inl ⟨f, rfl, rfl, rfl, rfl⟩
      | false => exact .inr (.inl ⟨f, rfl, rfl, rfl, rfl⟩)
  | arming =>
    cases l.cap.waiting with
    | true => exact .inr (.inr (.inl ⟨.inl rfl, rfl, rfl⟩))
    | false => exact .inr (.inr (.inr ⟨.inl (by simp), fun _ => rfl, rfl⟩))
  | holdoff =>
    cases l.cap.waiting with
    | true => exact .inr (.inr (.inl ⟨.inr rfl, rfl, rfl⟩))
    | false => exact .inr (.inr (.inr ⟨.inl (by simp), fun _ => rfl, rfl⟩))
  | inactive | listen => exact .inr (.inr (.inr ⟨.inl (by simp), by simp, rfl⟩))

theorem Lane.captureGlitch_step (l : Lane) (table : Eight Profile) :
    EngineStep l (l.captureGlitch table).lane := by
  obtain ⟨f, _, _, _, h⟩ | ⟨f, _, _, _, h⟩ | ⟨_, _, h⟩ | ⟨_, _, h⟩ :=
    l.captureGlitch_cases table <;> rw [h]
  · exact ((Lane.limitClose_step _ _ _).after ((EngineStep.refl l).withCap _)).thenFinish
  all_goals exact (EngineStep.refl l).withCap _

theorem Lane.reachFramePoint_step (l : Lane) (table : Eight Profile) (f : Frame) :
    EngineStep l (l.reachFramePoint table f).lane := by
  rw [l.reachFramePoint_eq]
  split
  · exact (EngineStep.refl l).withCap _
  · exact (l.limitClose_step table f).thenFinish

theorem Lane.reachWaitPoint_step (l : Lane) : EngineStep l l.reachWaitPoint := by
  unfold Lane.reachWaitPoint
  split <;> exact ⟨rfl, rfl, rfl, id, id⟩

theorem Lane.startCapture_step (l : Lane) (now : Stamp) : EngineStep l (l.startCapture now) := by
  unfold Lane.startCapture
  dsimp only
  split
  · exact (Lane.reachWaitPoint_step _).after ⟨rfl, rfl, rfl, id, id⟩
  · exact ⟨rfl, rfl, rfl, id, id⟩

theorem Lane.abortCapture_step (l : Lane) (table : Eight Profile) :
    EngineStep l (l.abortCapture table).lane := by
  unfold Lane.abortCapture
  dsimp only
  refine EngineStep.thenFinish ?_
  split
  · exact (l.closeFrame_step _ _ _).withCap _
  · exact ⟨rfl, rfl, rfl, id, id⟩

theorem Lane.drainWord_step (l : Lane) : EngineStep l l.drainWord :=
  (Lane.settleMarkers_step _).after ((Lane.mapOldest_step _ _).after ⟨rfl, rfl, rfl, id, id⟩)

theorem Lane.recordDone_step (l : Lane) : EngineStep l l.recordDone.lane := by
  unfold Lane.recordDone
  split
  · exact .refl l
  · exact EngineStep.thenFinish ⟨rfl, rfl, rfl, id, id⟩

theorem Lane.headerDone_step (l : Lane) : EngineStep l l.headerDone := by
  unfold Lane.headerDone
  split
  · exact l.mapOldest_step _
  · exact ⟨rfl, rfl, rfl, id, id⟩
  · exact .refl l

/-! ## The meter units -/

theorem Lane.disposeResult_step (l : Lane) (u : MeterUnit) (unit : UnitId) (why : Close) :
    EngineStep l (l.disposeResult u unit why).lane := by
  have hbind := Ring.bind_ok (r := l.ring) l.regs.meterMinimum
  obtain ⟨_, h⟩ | ⟨_, _, h⟩ | ⟨d, ring, _, _, hb, h⟩ | ⟨ring, _, _, hb, h⟩ :=
    l.disposeResult_cases u unit why <;> rw [h]
  · exact ⟨rfl, rfl, rfl, id, id⟩
  · exact ⟨rfl, rfl, rfl, id, id⟩
  · rw [hb] at hbind
    exact (Lane.requestFetch_step _).after ⟨rfl, rfl, rfl, id, hbind⟩
  · rw [hb] at hbind
    exact (Lane.reportDry_step _).after ⟨rfl, rfl, rfl, id, hbind⟩

theorem Lane.finishMeter_step (l : Lane) (u : MeterUnit) : EngineStep l (l.finishMeter u).lane := by
  obtain ⟨_, _, _, h⟩ | ⟨_, _, _, h⟩ | ⟨_, h⟩ := l.finishMeter_cases u <;> rw [h]
  · exact l.becomeStopped_step
  · exact l.finishStopping_step
  · exact .refl l

theorem Lane.endMeasurement_step (l : Lane) (u : MeterUnit) (unit : UnitId) (why : Close)
    (now edge : Stamp) : EngineStep l (l.endMeasurement u unit why now edge).lane :=
  (Lane.finishMeter_step _ _).after (l.disposeResult_step u unit why)

theorem Lane.endItem_step (l : Lane) (u : MeterUnit) (unit : UnitId) (now : Stamp)
    (e : EdgeStamp) : EngineStep l (l.endItem u unit now e).lane := by
  unfold Lane.endItem
  dsimp only
  split
  · exact l.endMeasurement_step _ _ _ _ _
  · split <;> exact .refl l

theorem Lane.meterEdge_step (l : Lane) (u : MeterUnit) (unit : UnitId) (now : Stamp)
    (active : Bool) (e : EdgeStamp) : EngineStep l (l.meterEdge u unit now active e).lane := by
  unfold Lane.meterEdge
  split
  · split <;> exact .refl l
  · split
    · exact l.endItem_step _ _ _ _
    · split <;> exact .refl l
  · exact .refl l

theorem Lane.stopMeter_step (l : Lane) (u : MeterUnit) : EngineStep l (l.stopMeter u).lane := by
  unfold Lane.stopMeter
  split
  · exact l.finishMeter_step _
  · exact .refl l

theorem Lane.abortMeter_step (l : Lane) (u : MeterUnit) (unit : UnitId) (now : Stamp) :
    EngineStep l (l.abortMeter u unit now).lane := by
  unfold Lane.abortMeter
  split
  · exact l.endMeasurement_step _ _ _ _ _
  · exact l.endMeasurement_step _ _ _ _ _
  · exact .refl l

theorem Lane.resultDone_step (l : Lane) (u : MeterUnit) : EngineStep l (l.resultDone u).lane := by
  unfold Lane.resultDone
  split
  · exact .refl l
  · exact (Lane.finishMeter_step _ _).after ⟨rfl, rfl, rfl, id, id⟩

/-! ## The replay engine -/

theorem Lane.mapCurrent_step (l : Lane) (f : ReplayRecord → ReplayRecord) :
    EngineStep l (l.mapCurrent f) := ⟨rfl, rfl, rfl, id, id⟩

theorem Lane.tick_step (l : Lane) : EngineStep l l.tick := l.mapCurrent_step _

theorem Lane.endRecord_step (l : Lane) (status : DescStatus) : EngineStep l (l.endRecord status) := by
  obtain ⟨_, h⟩ | ⟨c, _, h⟩ := l.endRecord_cases status <;> rw [h]
  · exact .refl l
  · exact ⟨rfl, rfl, rfl, id, id⟩

theorem Lane.finishReplay_step (l : Lane) : EngineStep l l.finishReplay.lane := by
  obtain ⟨e, _, _, _, _, h⟩ | h := l.finishReplay_cases <;> rw [h]
  · exact (Lane.becomeStopped_step _).after ⟨rfl, rfl, rfl, id, id⟩
  · exact .refl l

theorem Lane.takeRecord_step (l : Lane) (d : Desc) : EngineStep l (l.takeRecord d) := by
  obtain ⟨_, h⟩ | ⟨_, h⟩ := l.takeRecord_cases d <;> rw [h] <;> exact ⟨rfl, rfl, rfl, id, id⟩

theorem Lane.takeSpare_step (l : Lane) : EngineStep l l.takeSpare := by
  obtain ⟨d, _, _, _, _, _, h⟩ | h := l.takeSpare_cases <;> rw [h]
  · have empty := EngineStep.ofRing l { l.ring with slot := .empty }
      (fun h => ringOk_of_slot h rfl rfl rfl rfl (by simp [Slot.isFetching]))
    exact (Lane.requestFetch_step _).after ((Lane.takeRecord_step _ _).after empty)
  · exact .refl l

theorem Lane.seekSpare_step (l : Lane) : EngineStep l l.seekSpare.lane := by
  unfold Lane.seekSpare
  dsimp only
  split
  · exact (Lane.reportDry_step _).after l.takeSpare_step
  · exact l.takeSpare_step

theorem Lane.startReplay_step (l : Lane) : EngineStep l l.startReplay.lane :=
  (Lane.seekSpare_step _).after ⟨rfl, rfl, rfl, id, id⟩

theorem Lane.checkHeader_step (l : Lane) (table : Eight Profile) (c : ReplayRecord) :
    EngineStep l (l.checkHeader table c) := by
  unfold Lane.checkHeader
  dsimp only
  split
  · split
    · exact l.endRecord_step _
    · split
      · split
        · exact ⟨rfl, rfl, rfl, id, id⟩
        · split <;> exact ⟨rfl, rfl, rfl, id, id⟩
      · exact l.endRecord_step _
  · exact .refl l

theorem Lane.loadDone_step (l : Lane) (table : Eight Profile) : EngineStep l (l.loadDone table) := by
  unfold Lane.loadDone
  split
  · split
    · exact l.checkHeader_step _ _
    · exact ⟨rfl, rfl, rfl, id, id⟩
  · exact .refl l

theorem Lane.fillWord_step (l : Lane) (data : Word) : EngineStep l (l.fillWord data) := by
  unfold Lane.fillWord
  dsimp only
  split
  · exact .refl l
  · split <;> exact ⟨rfl, rfl, rfl, id, id⟩

theorem Lane.beginInterval_step (l : Lane) (table : Eight Profile) (c : ReplayRecord) :
    EngineStep l (l.beginInterval table c) := by
  unfold Lane.beginInterval
  dsimp only
  split
  · split
    · exact ⟨rfl, rfl, rfl, id, id⟩
    · exact .refl l
  · split
    · split
      · exact (Lane.endRecord_step _ _).after ⟨rfl, rfl, rfl, id, id⟩
      · exact ⟨rfl, rfl, rfl, id, id⟩
    · exact (Lane.endRecord_step _ _).after ⟨rfl, rfl, rfl, id, id⟩

theorem Lane.firstInterval_step (l : Lane) (table : Eight Profile) (c : ReplayRecord) :
    EngineStep l (l.firstInterval table c) := by
  unfold Lane.firstInterval
  split
  · exact l.endRecord_step _
  · exact l.beginInterval_step _ _

theorem Lane.beginTrail_step (l : Lane) (c : ReplayRecord) : EngineStep l (l.beginTrail c) :=
  ⟨rfl, rfl, rfl, id, id⟩

theorem Lane.endPlaying_step (l : Lane) (table : Eight Profile) (c : ReplayRecord) :
    EngineStep l (l.endPlaying table c) := by
  unfold Lane.endPlaying
  split
  · exact l.endRecord_step _
  · split
    · exact l.beginTrail_step _
    · exact l.beginInterval_step _ _

theorem Lane.endTrail_step (l : Lane) (table : Eight Profile) (c : ReplayRecord) :
    EngineStep l (l.endTrail table c) := by
  have change (k : Lane) (status : DescStatus) (h : EngineStep l k) :
      EngineStep l (k.endRecord status) := (k.endRecord_step status).after h
  unfold Lane.endTrail
  dsimp only
  split
  · exact change _ _ ⟨rfl, rfl, rfl, id, id⟩
  · split
    · exact change _ _ ⟨rfl, rfl, rfl, id, id⟩
    · split
      · exact (Lane.beginInterval_step _ _ _).after ⟨rfl, rfl, rfl, id, id⟩
      · exact ⟨rfl, rfl, rfl, id, id⟩

theorem Lane.stopReplay_step (l : Lane) : EngineStep l l.stopReplay.lane := by
  unfold Lane.stopReplay
  split
  · exact l.endRecord_step _
  · exact l.endRecord_step _
  · exact l.mapCurrent_step _
  · exact l.mapCurrent_step _
  · exact l.finishReplay_step

theorem Lane.abortReplay_step (l : Lane) : EngineStep l l.abortReplay.lane := by
  unfold Lane.abortReplay
  split
  · exact l.endRecord_step _
  · exact l.finishReplay_step

theorem Lane.profileChanged_step (l : Lane) (ix : ProfileIx) :
    EngineStep l (l.profileChanged ix) := by
  unfold Lane.profileChanged
  split
  · split
    · split
      · exact ⟨rfl, rfl, rfl, id, id⟩
      · exact l.endRecord_step _
    · exact .refl l
  · exact .refl l

theorem Lane.killMatcher_step (l : Lane) (ix : ProfileIx) : EngineStep l (l.killMatcher ix) := by
  unfold Lane.killMatcher
  split
  · exact ⟨rfl, rfl, rfl, id, id⟩
  · exact .refl l

theorem Lane.replayDone_step (l : Lane) : EngineStep l l.replayDone.lane := by
  unfold Lane.replayDone
  split
  · exact .refl l
  · exact (Lane.seekSpare_step _).after
      ((Lane.finishReplay_step _).after ⟨rfl, rfl, rfl, id, id⟩)

theorem Lane.takeWord_step (l : Lane) (p : Purpose) (data : Word) :
    EngineStep l (l.takeWord p data) := by
  cases p with
  | fetch => exact l.fetchWord_step data
  | drain => exact l.drainWord_step
  | fill => exact l.fillWord_step data
  | load => exact l.mapCurrent_step _
  | decode | header | writeback => exact .refl l

/-! ## Faults and lane commands -/

theorem Lane.fault_step (l : Lane) (cause : FaultCause) : EngineStep l (l.fault cause) :=
  ⟨rfl, rfl, rfl, fun h => (nomatch h), Ring.fault_ok⟩

theorem Lane.answer_step (l : Lane) (r : LResult) : EngineStep l (l.answer r) :=
  ⟨rfl, rfl, rfl, id, id⟩

theorem Lane.accept_step (l : Lane) : EngineStep l l.accept := ⟨rfl, rfl, rfl, id, id⟩

theorem Lane.skip_step (l : Lane) (arg : BitVec 12) : EngineStep l (l.skip arg) := by
  unfold Lane.skip
  split
  · exact ⟨rfl, rfl, rfl, id, id⟩
  · exact l.answer_step _

theorem Lane.flush_step (l : Lane) : EngineStep l l.flush.lane := by
  unfold Lane.flush
  split
  · exact l.answer_step _
  · split
    · exact (Lane.checkFlush_step _).after ((Lane.requestFetch_step _).after
        ⟨rfl, rfl, rfl, fun h => (nomatch h), Ring.beginFlush_ok⟩)
    · exact l.answer_step _

theorem Lane.abortFlush_step (l : Lane) : EngineStep l l.abortFlush.lane := by
  unfold Lane.abortFlush
  split
  · exact ⟨rfl, rfl, rfl, fun h => (nomatch h), id⟩
  · exact l.becomeStopped_step

theorem Lane.recover_step (l : Lane) : EngineStep l l.recover := by
  unfold Lane.recover
  split
  · exact ⟨rfl, rfl, rfl, fun h => (nomatch h),
      fun h => ringOk_of_slot h rfl rfl rfl rfl (by simp [Slot.isFetching])⟩
  · exact l.answer_step _

end Sys2Proof.Machine
end

section
/-! SUPPORT. What every command keeps of every lane: the glitch filter stays right, the ring stays right, and
no lane comes to work while ENABLE is 0. Proved once for every command, from the steps of the engines. -/

namespace Sys2Proof.Laws

open Sys2Proof.Machine Sys2Proof.Safety

/-- What a command keeps of a lane, where `on` is ENABLE before it. -/
structure LaneKept (on : Bool) (l k : Lane) : Prop where
  filter : filterOk l → filterOk k
  ring : ringOk l.ring → ringOk k.ring
  work : k.life.active = true → l.life.active = true ∨ on = true

/-- What a command keeps of every lane, and of RESPLIM. -/
structure LanesKept (on : Bool) (s t : State) : Prop where
  resplim : 16 ≤ s.bus.resplim.toNat → 16 ≤ t.bus.resplim.toNat
  lane : ∀ m, LaneKept on (s.lane m) (t.lane m)

section
variable {on : Bool}

/-! ## Lanes -/

theorem LaneKept.refl (l : Lane) : LaneKept on l l := ⟨id, id, .inl⟩

theorem LaneKept.after {l m k : Lane} (g : LaneKept on m k) (h : LaneKept on l m) :
    LaneKept on l k :=
  ⟨g.filter ∘ h.filter, g.ring ∘ h.ring, fun a => (g.work a).elim h.work .inr⟩

/-- A filter whose sampling and whose front end stay is right as before. -/
theorem filterOk_of_fe {l k : Lane} (hr : k.regs.lmode = l.regs.lmode) (hf : k.fe = l.fe)
    (h : filterOk l) : filterOk k := by
  intro hs
  rw [hf]
  exact h (hr ▸ hs)

/-- The glitch filter as R9 to R11 tell it: with no change pending the levels are equal, and a pending change
has the sampled level, which differs from the filtered one. -/
theorem filterOk_iff (l : Lane) :
    filterOk l ↔ (l.regs.lmode.samples = true →
      (l.fe.change = none → l.fe.sampled = l.fe.filtered)
      ∧ ∀ c, l.fe.change = some c → c.level = l.fe.sampled ∧ l.fe.filtered ≠ l.fe.sampled) := by
  refine imp_congr_right fun _ => ?_
  cases hc : l.fe.change with
  | none => simpa using eq_comm
  | some c =>
    simp only [Option.map_some, Option.some.injEq, reduceCtorEq, false_implies, true_and]
    constructor
    · rintro h _ rfl
      obtain ⟨hs, hf⟩ := (h c.level).mp rfl
      exact ⟨hs.symm, hs ▸ hf⟩
    · intro h lvl
      obtain ⟨hs, hf⟩ := h c rfl
      constructor
      · rintro rfl
        exact ⟨hs.symm, hs ▸ hf⟩
      · rintro ⟨rfl, _⟩
        exact hs

theorem laneKept_of_engine {l k : Lane} (h : EngineStep l k) : LaneKept on l k :=
  ⟨filterOk_of_fe (by rw [h.regs]) h.fe, h.ring, fun a => .inl (h.work a)⟩

/-- A reset lane meets every condition (R128). -/
theorem laneKept_afterReset (l : Lane) (line : Level) (stamp : Stamp) (r : LResult) :
    LaneKept on l (.afterReset line stamp r) :=
  ⟨fun _ hs => (nomatch hs), fun _ => ringOk_reset, fun h => (nomatch h)⟩

/-- The configuration registers but LCFG do not touch the filter (R17, R73, R88). -/
theorem laneKept_of_regs (l : Lane) (r : LaneRegs) (h : r.lmode = l.regs.lmode) :
    LaneKept on l { l with regs := r } :=
  ⟨filterOk_of_fe h rfl, id, .inl⟩

/-! ## The state -/

theorem LanesKept.refl (s : State) : LanesKept on s s := ⟨id, fun _ => .refl _⟩

theorem LanesKept.after {s t u : State} (g : LanesKept on t u) (h : LanesKept on s t) :
    LanesKept on s u :=
  ⟨g.resplim ∘ h.resplim, fun m => (g.lane m).after (h.lane m)⟩

/-- A change of neither the lanes nor RESPLIM. -/
theorem lanesKept_of_eq {s t : State} (hl : t.lanes = s.lanes)
    (hb : t.bus.resplim = s.bus.resplim) : LanesKept on s t := by
  refine ⟨fun h => hb ▸ h, fun m => ?_⟩
  rw [State.lane, State.lane, hl]
  exact .refl _

/-- A change of lane `n`, with nothing else of the lanes. -/
theorem lanesKept_of_set {s t : State} {n : LaneId} {l : Lane} (hl : t.lanes = s.lanes.set n l)
    (hb : t.bus.resplim = s.bus.resplim) (h : LaneKept on (s.lane n) l) : LanesKept on s t := by
  refine ⟨fun k => hb ▸ k, fun m => ?_⟩
  rw [State.lane, State.lane, hl, Eight.get_set]
  split
  · next hm => exact hm ▸ h
  · exact .refl _

theorem setLane_kept (s : State) (n : LaneId) {l : Lane} (h : LaneKept on (s.lane n) l) :
    LanesKept on s (s.setLane n l) := lanesKept_of_set rfl rfl h

theorem setLane_engine (s : State) (n : LaneId) {l : Lane} (h : EngineStep (s.lane n) l) :
    LanesKept on s (s.setLane n l) := setLane_kept s n (laneKept_of_engine h)

theorem putLane_kept (s : State) (n : LaneId) {o : LaneOut} (h : LaneKept on (s.lane n) o.lane) :
    LanesKept on s (s.putLane n o) :=
  lanesKept_of_set (State.postAll_lanes _ _ _) (by simp) h

theorem putLane_engine (s : State) (n : LaneId) {o : LaneOut}
    (h : EngineStep (s.lane n) o.lane) : LanesKept on s (s.putLane n o) :=
  putLane_kept s n (laneKept_of_engine h)

theorem putMeter_kept (s : State) (n : LaneId) (u : UnitId) {o : MeterOut}
    (h : LaneKept on (s.lane n) o.lane) : LanesKept on s (s.putMeter n u o) :=
  lanesKept_of_set (State.postAll_lanes _ _ _) (by simp) h

theorem putMeter_engine (s : State) (n : LaneId) (u : UnitId) {o : MeterOut}
    (h : EngineStep (s.lane n) o.lane) : LanesKept on s (s.putMeter n u o) :=
  putMeter_kept s n u (laneKept_of_engine h)

theorem raiseRequest_kept {s t : State} (h : LanesKept on s t) : LanesKept on s t.raiseRequest :=
  (lanesKept_of_eq (by simp) (by simp)).after h

/-- One function of each lane, on all eight. -/
theorem mapIdx_kept {s t : State} (f : LaneId → Lane → Lane) (hl : t.lanes = s.lanes.mapIdx f)
    (hb : 16 ≤ s.bus.resplim.toNat → 16 ≤ t.bus.resplim.toNat)
    (h : ∀ n l, LaneKept on l (f n l)) : LanesKept on s t := by
  refine ⟨hb, fun m => ?_⟩
  rw [State.lane, State.lane, hl, Eight.get_mapIdx]
  exact h _ _

theorem hostWrite_kept (s : State) {f : State → State} (h : LanesKept on s (f s)) :
    LanesKept on s (s.hostWrite f) := by
  obtain ⟨_, k⟩ | ⟨_, k⟩ := s.hostWrite_cases f <;> rw [k]
  · exact .refl s
  · exact h

/-! ## The front end -/

/-- Two levels that differ from a third are equal. -/
theorem flip_eq_of_ne {a b : Level} (h : a ≠ b) : b.flip = a := by
  cases a <;> cases b <;> simp_all [Level.flip]

theorem flip_ne (a : Level) : a ≠ a.flip := by cases a <;> decide

/-- A transition keeps the filter right: it begins a change where the levels were equal (R9), and absorbs the
one pending where they differed (R11). -/
theorem seeTransition_kept (l : Lane) (table : Eight Profile) (now : Stamp) :
    LaneKept on l (l.seeTransition table now).lane := by
  unfold Lane.seeTransition
  split
  · next hs =>
    dsimp only
    split
    · next hc =>
      refine ⟨fun h => (filterOk_iff _).mpr fun _ => ⟨fun k => (nomatch k), ?_⟩, id, .inl⟩
      intro c k
      cases Option.some.inj k
      have equal := ((filterOk_iff l).mp h hs).1 hc
      exact ⟨rfl, equal ▸ flip_ne l.fe.sampled⟩
    · next c hc =>
      have absorbed : LaneKept on l { l with
          line := l.fe.sampled.flip
          fe := { l.fe with sampled := l.fe.sampled.flip, change := none } } := by
        refine ⟨fun h => (filterOk_iff _).mpr fun _ =>
          ⟨fun _ => ?_, fun _ k => (nomatch k)⟩, id, .inl⟩
        exact flip_eq_of_ne (((filterOk_iff l).mp h hs).2 c hc).2
      split
      · exact (laneKept_of_engine (Lane.captureGlitch_step _ _)).after absorbed
      · exact absorbed
  · next hs => exact ⟨fun _ h => absurd h hs, id, .inl⟩

/-- The accepted change leaves the levels equal (R10). -/
theorem acceptChange_kept (l : Lane) (c : Change) (hc : l.fe.change = some c) :
    LaneKept on l (l.acceptChange c) := by
  refine ⟨fun h => (filterOk_iff _).mpr fun hs => ⟨fun _ => ?_, fun _ k => (nomatch k)⟩, id, .inl⟩
  exact (((filterOk_iff l).mp h hs).2 c hc).1.symm

theorem acceptEdge_kept (s : State) (n : LaneId) (c : Change)
    (hc : (s.lane n).fe.change = some c) : LanesKept on s (s.acceptEdge n c) := by
  have accepted := acceptChange_kept (on := on) _ c hc
  unfold State.acceptEdge
  dsimp only
  split
  · split
    · exact putLane_kept _ _ ((laneKept_of_engine (Lane.captureEdge_step _ _ _ _ _)).after accepted)
    · split
      · exact putMeter_kept _ _ _
          ((laneKept_of_engine (Lane.meterEdge_step _ _ _ _ _ _)).after accepted)
      · exact setLane_kept _ _ accepted
    · exact setLane_kept _ _ accepted
  · exact setLane_kept _ _ accepted

/-! ## Lane commands -/

theorem stopEngine_kept (s : State) (n : LaneId) {l : Lane} (h : EngineStep (s.lane n) l) :
    LanesKept on s (s.stopEngine n l) := by
  unfold State.stopEngine
  split
  · exact putLane_engine _ _ h.thenFinish
  · split
    · exact putMeter_engine _ _ _ ((Lane.stopMeter_step _ _).after h)
    · exact setLane_engine _ _ h
  · exact putLane_engine _ _ ((Lane.stopReplay_step _).after h)
  · exact setLane_engine _ _ h

theorem abortEngine_kept (s : State) (n : LaneId) {l : Lane} (h : EngineStep (s.lane n) l) :
    LanesKept on s (s.abortEngine n l) := by
  unfold State.abortEngine
  split
  · exact putLane_engine _ _ ((Lane.abortCapture_step _ _).after h)
  · split
    · exact putMeter_engine _ _ _ ((Lane.abortMeter_step _ _ _ _).after h)
    · exact setLane_engine _ _ h
  · exact putLane_engine _ _ ((Lane.abortReplay_step _).after h)
  · exact setLane_engine _ _ h

theorem beginEngine_kept (s : State) (n : LaneId) {l : Lane} (h : LaneKept on (s.lane n) l) :
    LanesKept on s (s.beginEngine n l) := by
  unfold State.beginEngine
  split
  · exact setLane_kept _ _ ((laneKept_of_engine
      ((Lane.requestFetch_step _).after (Lane.startCapture_step _ _))).after h)
  · split
    · exact lanesKept_of_set rfl rfl ((laneKept_of_engine (Lane.requestFetch_step _)).after h)
    · exact .refl s
  · exact putLane_kept _ _ ((laneKept_of_engine
      ((Lane.requestFetch_step _).after (Lane.startReplay_step _))).after h)
  · exact .refl s

/-- START is accepted only while ENABLE is 1 (R116). -/
theorem startVerdict_accepted (s : State) (n : LaneId) (h : s.startVerdict n = .accepted) :
    s.ctl.enable = true := by
  unfold State.startVerdict at h
  by_contra he
  have he : s.ctl.enable = false := by simpa using he
  by_cases hl : (s.lane n).life = .stopped
  · simp [hl, he] at h
  · simp [hl] at h

theorem startLane_kept (s : State) (n : LaneId) :
    LanesKept s.ctl.enable s (s.startLane n) := by
  unfold State.startLane
  dsimp only
  split
  · next hv =>
    exact raiseRequest_kept (beginEngine_kept _ _
      ⟨filterOk_of_fe rfl rfl, id, fun _ => .inr (startVerdict_accepted s n hv)⟩)
  · exact setLane_engine _ _ (Lane.answer_step _ _)

theorem stopLane_kept (s : State) (n : LaneId) : LanesKept on s (s.stopLane n) := by
  unfold State.stopLane
  dsimp only
  split
  · next hl =>
    exact raiseRequest_kept (stopEngine_kept _ _ ⟨rfl, rfl, rfl, fun _ => by simp [hl, Life.active], id⟩)
  · exact setLane_engine _ _ (Lane.accept_step _)
  · exact putLane_engine _ _ (Lane.accept_step _)
  · exact setLane_engine _ _ (Lane.answer_step _ _)
  · exact setLane_engine _ _ (Lane.answer_step _ _)

theorem abortLane_kept (s : State) (n : LaneId) : LanesKept on s (s.abortLane n) := by
  have aborting (hl : (s.lane n).life.active = true) :
      EngineStep (s.lane n) { (s.lane n).accept with life := .stopping .abort } :=
    ⟨rfl, rfl, rfl, fun _ => hl, id⟩
  unfold State.abortLane
  dsimp only
  split
  · next hl => exact raiseRequest_kept (abortEngine_kept _ _ (aborting (by simp [hl, Life.active])))
  · next hl => exact raiseRequest_kept (abortEngine_kept _ _ (aborting (by simp [hl, Life.active])))
  · exact setLane_engine _ _ (Lane.accept_step _)
  · exact setLane_engine _ _ (Lane.accept_step _)
  · exact raiseRequest_kept (putLane_engine _ _
      ((Lane.abortFlush_step _).after (Lane.accept_step _)))
  · exact setLane_engine _ _ (Lane.answer_step _ _)

theorem flush_kept (s : State) (n : LaneId) :
    LanesKept on s (s.putLane n (s.lane n).flush).raiseRequest :=
  raiseRequest_kept (putLane_engine _ _ (Lane.flush_step _))

theorem resetLane_kept (s : State) (n : LaneId) (r : LResult) :
    LanesKept on s (s.resetLane n r) := by
  refine lanesKept_of_set rfl ?_ (laneKept_afterReset _ _ _ _)
  change (s.bus.orphan n).resplim = s.bus.resplim
  unfold BusMaster.orphan
  split
  · split <;> rfl
  · rfl

theorem badLaneCommand_kept (s : State) (n : LaneId) : LanesKept on s (s.badLaneCommand n) :=
  setLane_engine _ _ (Lane.answer_step _ _)

theorem laneCommand_kept (s : State) (n : LaneId) (code : BitVec 4) (arg : BitVec 12) :
    LanesKept s.ctl.enable s (s.laneCommand n code arg) := by
  unfold State.laneCommand
  split
  · exact startLane_kept _ _
  · split
    · exact stopLane_kept _ _
    · split
      · exact abortLane_kept _ _
      · split
        · exact setLane_engine _ _ (Lane.skip_step _ _)
        · split
          · exact flush_kept _ _
          · split
            · exact setLane_engine _ _ (Lane.recover_step _)
            · split
              · exact resetLane_kept _ _ _
              · exact badLaneCommand_kept _ _

/-! ## Registers of a lane's block -/

theorem lockedWrite_kept (s : State) (n : LaneId) (f : Lane → Lane)
    (h : LaneKept on (s.lane n) (f (s.lane n))) : LanesKept on s (s.lockedWrite n f) := by
  unfold State.lockedWrite
  dsimp only
  split
  · exact setLane_kept _ _ h
  · exact setLane_engine _ _ ⟨rfl, rfl, rfl, id, id⟩

theorem writeRegs_kept (s : State) (n : LaneId) (f : LaneRegs → LaneRegs)
    (h : ∀ r, (f r).lmode = r.lmode) : LanesKept on s (s.writeRegs n f) :=
  lockedWrite_kept _ _ _ (laneKept_of_regs _ _ (h _))

/-- The front end is resynchronised: the levels are equal and no change is pending (R7). -/
theorem writeLcfg_kept (s : State) (n : LaneId) (w : Word) : LanesKept on s (s.writeLcfg n w) :=
  lockedWrite_kept _ _ _
    ⟨fun _ => (filterOk_iff _).mpr fun _ => ⟨fun _ => rfl, fun _ k => (nomatch k)⟩, id, .inl⟩

/-- A re-initialised ring is right wherever it starts on an 8-byte boundary (R130). -/
theorem reinit_ok (r : Ring) (hs : r.slot.isFetching = false) (hb : r.rbase.extractLsb' 0 3 = 0) :
    ringOk r.reinit := by
  rw [r.reinit_eq hs]
  exact ⟨by simp [BitVec.le_def], fun h => (nomatch h), hb⟩

theorem ringWrite_kept (s : State) (n : LaneId) (f : Ring → Ring) (hs : ∀ r, (f r).slot = r.slot)
    (hb : ∀ r, r.rbase.extractLsb' 0 3 = 0 → (f r).rbase.extractLsb' 0 3 = 0) :
    LanesKept on s (s.ringWrite n f) := by
  unfold State.ringWrite
  dsimp only
  split
  · next h =>
    obtain ⟨hslot, _⟩ := (Ring.busy_iff _).mp h.2
    exact setLane_engine _ _ (.ofRing _ _ fun ⟨_, _, hbase⟩ =>
      reinit_ok _ (by rw [hs]; exact hslot) (hb _ hbase))
  · exact setLane_engine _ _ ⟨rfl, rfl, rfl, id, id⟩

/-- Either word of RBASE leaves its low three bits 0 (R130). -/
theorem rbaseLow_boundary (a : Addr) (w : Word) : (rbaseLow a w).extractLsb' 0 3 = 0 := by
  have low : (rbaseLow a w).extractLsb' 0 3 = (w &&& 0xFFF8).extractLsb' 0 3 :=
    BitVec.extractLsb'_append_eq_of_add_le (by decide)
  rw [low]
  refine BitVec.eq_of_getLsbD_eq fun i hi => ?_
  interval_cases i <;> simp

theorem rbaseHigh_boundary (a : Addr) (w : Word) (h : a.extractLsb' 0 3 = 0) :
    (rbaseHigh a w).extractLsb' 0 3 = 0 := by
  have low : (rbaseHigh a w).extractLsb' 0 3 = (a.extractLsb' 0 16).extractLsb' 0 3 :=
    BitVec.extractLsb'_append_eq_of_add_le (by decide)
  rw [low, BitVec.extractLsb'_extractLsb'_of_le (by decide), h]

theorem writeRbase_kept (s : State) (n : LaneId) (high : Bool) (w : Word) :
    LanesKept on s (s.writeRbase n high w) := by
  refine ringWrite_kept _ _ _ (fun _ => rfl) fun r h => ?_
  cases high
  · exact rbaseLow_boundary _ _
  · exact rbaseHigh_boundary _ _ h

theorem writeRsize_kept (s : State) (n : LaneId) (w : Word) : LanesKept on s (s.writeRsize n w) :=
  ringWrite_kept _ _ _ (fun _ => rfl) fun _ h => h

theorem writePostedReg_kept (s : State) (n : LaneId) (w : Word) :
    LanesKept on s (s.writePostedReg n w) :=
  raiseRequest_kept (putLane_engine _ _ (Lane.writePosted_step _ _))

theorem writeLaneReg_kept (s : State) (n : LaneId) (r : Nat) (w : Word) :
    LanesKept s.ctl.enable s (s.writeLaneReg n r w) := by
  unfold State.writeLaneReg
  split
  all_goals first
    | exact writeRegs_kept _ _ _ fun _ => rfl
    | exact writeLcfg_kept _ _ _
    | exact writeRbase_kept _ _ _ _
    | exact writeRsize_kept _ _ _
    | exact writePostedReg_kept _ _ _
    | exact laneCommand_kept _ _ _ _
    | exact .refl s

/-! ## The bus and the resets -/

theorem grant_kept (s : State) : LanesKept on s s.grant := by
  obtain ⟨_, h⟩ | ⟨_, _, h⟩ | ⟨n, _, _, _, h⟩ | ⟨n, q, _, _, _, h⟩ := grant_cases s <;> rw [h]
  · exact .refl s
  · exact lanesKept_of_eq rfl rfl
  · exact lanesKept_of_eq rfl rfl
  · refine LanesKept.after (lanesKept_of_eq rfl rfl)
      (t := if q.purpose = .fetch then s.setLane n { s.lane n with
        ring := (s.lane n).ring.grantFetch } else s) ?_
    split
    · exact setLane_engine _ _ (.ofRing _ _ Ring.grantFetch_ok)
    · exact .refl s

theorem faultLane_kept (s : State) (n : LaneId) (c : FaultCause) :
    LanesKept on s (s.faultLane n c) :=
  lanesKept_of_set rfl rfl (laneKept_of_engine (Lane.fault_step _ c))

theorem fetchDone_kept (s : State) (n : LaneId) : LanesKept on s (s.fetchDone n) := by
  unfold State.fetchDone
  dsimp only
  split
  · exact .refl s
  · next d hd =>
    split
    · exact setLane_engine _ _ ((Lane.takeSpare_step _).after (Lane.takeFetched_step _ d d hd))
    · exact faultLane_kept _ _ _

theorem writeBackDone_kept (s : State) (n : LaneId) (forRing : Bool) :
    LanesKept on s (s.writeBackDone n forRing) := by
  unfold State.writeBackDone
  dsimp only
  split
  · exact putLane_engine _ _ (Lane.returnDone_step _)
  · split
    · exact putLane_engine _ _ (Lane.recordDone_step _)
    · split
      · exact putMeter_engine _ _ _ (Lane.resultDone_step _ _)
      · exact .refl s
    · exact putLane_engine _ _ (Lane.replayDone_step _)
    · exact .refl s

theorem burstDone_kept (s : State) (b : Burst) : LanesKept on s (s.burstDone b) := by
  unfold State.burstDone
  dsimp only
  split
  · exact fetchDone_kept _ _
  · exact setLane_engine _ _ (Lane.mapOldest_step _ _)
  · exact setLane_engine _ _ (Lane.headerDone_step _)
  · exact writeBackDone_kept _ _ _
  · exact setLane_engine _ _ (Lane.loadDone_step _ _)
  · exact .refl s
  · exact .refl s

theorem completeSoftReset_kept (s : State) : LanesKept on s s.completeSoftReset :=
  mapIdx_kept (fun _ l => .afterReset l.line s.time.count .none) rfl id
    fun _ _ => laneKept_afterReset _ _ _ _

theorem softReset_kept (s : State) : LanesKept on s s.softReset := by
  unfold State.softReset
  split
  · exact lanesKept_of_eq rfl rfl
  · exact completeSoftReset_kept s

theorem deviceReset_kept (s : State) : LanesKept on s s.deviceReset :=
  mapIdx_kept (fun _ l => .afterReset l.line 0 .none) rfl
    (fun _ => show 16 ≤ (1024 : BitVec 12).toNat by decide) fun _ _ => laneKept_afterReset _ _ _ _

theorem acknowledge_kept (s : State) (data : Word) : LanesKept on s (s.acknowledge data) := by
  obtain ⟨_, h⟩ | ⟨b, _, ⟨_, h⟩ | ⟨_, _, h⟩ | ⟨_, _, _, h⟩ | ⟨_, _, _, h⟩⟩ :=
    acknowledge_cases s data <;> rw [h]
  · exact .refl s
  · exact completeSoftReset_kept s
  · exact raiseRequest_kept (lanesKept_of_eq rfl rfl)
  · exact raiseRequest_kept ((burstDone_kept _ _).after
      (lanesKept_of_set rfl rfl (laneKept_of_engine (Lane.takeWord_step _ _ _))))
  · exact lanesKept_of_set rfl rfl (laneKept_of_engine (Lane.takeWord_step _ _ _))

theorem failCycle_kept (s : State) (e : Bool) : LanesKept on s (s.failCycle e) := by
  obtain ⟨_, h⟩ | ⟨b, _, ⟨_, h⟩ | ⟨_, s1, rfl, ⟨_, h⟩ | ⟨_, h⟩⟩⟩ := failCycle_cases s e <;> rw [h]
  · exact .refl s
  · exact completeSoftReset_kept s
  · exact raiseRequest_kept (lanesKept_of_eq rfl rfl)
  · exact raiseRequest_kept ((faultLane_kept _ _ _).after (lanesKept_of_eq rfl rfl))

/-! ## Device control and the profile table -/

theorem profileChanged_kept (s : State) (ix : ProfileIx) : LanesKept on s (s.profileChanged ix) :=
  mapIdx_kept _ rfl id fun _ _ =>
    laneKept_of_engine ((Lane.profileChanged_step _ _).after (Lane.killMatcher_step _ _))

theorem commitProfile_kept (s : State) (ix : ProfileIx) : LanesKept on s (s.commitProfile ix) := by
  unfold State.commitProfile
  split
  · exact raiseRequest_kept ((profileChanged_kept _ _).after (lanesKept_of_eq rfl rfl))
  · exact lanesKept_of_eq rfl rfl

theorem clearProfile_kept (s : State) (ix : ProfileIx) : LanesKept on s (s.clearProfile ix) :=
  raiseRequest_kept ((profileChanged_kept _ _).after (lanesKept_of_eq rfl rfl))

theorem profileCommand_kept (s : State) (code : BitVec 4) (ix : ProfileIx) :
    LanesKept on s (s.profileCommand code ix) := by
  unfold State.profileCommand
  split
  · exact commitProfile_kept _ _
  · split
    · exact clearProfile_kept _ _
    · split <;> exact lanesKept_of_eq rfl rfl

theorem tick_kept (s : State) : LanesKept on s s.tick :=
  mapIdx_kept _ rfl id fun _ l => laneKept_of_engine l.tick_step

theorem clock_resplim (b : BusMaster) (clocks : Nat) : (b.clock clocks).resplim = b.resplim := by
  unfold BusMaster.clock
  split <;> rfl

theorem coreClock_kept (s : State) : LanesKept on s s.coreClock := by
  have aged : LanesKept on s { s with bus := s.bus.clock 1 } :=
    lanesKept_of_eq rfl (clock_resplim _ _)
  unfold State.coreClock
  dsimp only
  split
  · split
    · exact (tick_kept _).after aged
    · exact lanesKept_of_eq rfl (clock_resplim _ _)
  · exact aged

theorem writeControl_kept (s : State) (w : Word) : LanesKept on s (s.writeControl w) := by
  unfold State.writeControl
  split
  · exact lanesKept_of_eq rfl rfl
  · split
    · exact lanesKept_of_eq rfl rfl
    · split <;> exact lanesKept_of_eq rfl rfl

theorem writePresc_kept (s : State) (w : Word) : LanesKept on s (s.writePresc w) := by
  unfold State.writePresc
  split <;> exact lanesKept_of_eq rfl rfl

/-- A taken RESPLIM is at least 16 (R161). -/
theorem writeResplim_kept (s : State) (w : Word) : LanesKept on s (s.writeResplim w) := by
  unfold State.writeResplim
  split
  · exact lanesKept_of_eq rfl rfl
  · next h => exact ⟨fun _ => Nat.le_of_not_lt h, fun _ => .refl _⟩

theorem writeIrqctl_kept (s : State) (w : Word) : LanesKept on s (s.writeIrqctl w) := by
  unfold State.writeIrqctl
  split <;> exact lanesKept_of_eq rfl rfl

theorem globalCommand_kept (s : State) (code : BitVec 4) : LanesKept on s (s.globalCommand code) := by
  unfold State.globalCommand
  split
  · exact lanesKept_of_eq rfl rfl
  · split
    · exact lanesKept_of_eq rfl rfl
    · split
      · exact softReset_kept _
      · exact lanesKept_of_eq rfl rfl

theorem writeGlobalReg_kept (s : State) (o : Nat) (w : Word) :
    LanesKept on s (s.writeGlobalReg o w) := by
  unfold State.writeGlobalReg
  split
  all_goals first
    | exact writeControl_kept _ _
    | exact writePresc_kept _ _
    | exact writeResplim_kept _ _
    | exact globalCommand_kept _ _
    | exact writeIrqctl_kept _ _
    | exact profileCommand_kept _ _ _
    | exact lanesKept_of_eq rfl rfl

theorem writeWindow_kept (s : State) (offset : BitVec 10) (w : Word) :
    LanesKept s.ctl.enable s (s.writeWindow offset w) := by
  unfold State.writeWindow
  dsimp only
  split
  · exact writeGlobalReg_kept _ _ _
  · split
    · exact lanesKept_of_eq rfl rfl
    · split
      · exact writeLaneReg_kept _ _ _ _
      · exact .refl s

end

/-! ## Every command -/

/-- A report that is taken where it is due, and changes nothing elsewhere (log 1). -/
theorem kept_of_due {due : Prop} [Decidable due] {s t u : State} {on : Bool}
    (h : (if due then .next u else .next s : Host.Outcome State Fault Refusal) = .next t)
    (hu : LanesKept on s u) : LanesKept on s t := by
  split at h <;> cases h
  · exact hu
  · exact .refl s

/-- Every command keeps every lane right. -/
theorem exec_kept (c : Instr) (s t : State) (h : exec c s = .next t) :
    LanesKept s.ctl.enable s t := by
  cases c with
  | transition n =>
    cases h
    exact raiseRequest_kept (putLane_kept _ _ (seeTransition_kept _ _ _))
  | edgeAccepted n =>
    simp only [exec, execEdgeAccepted] at h
    split at h
    · next c hc => exact kept_of_due h (raiseRequest_kept (acceptEdge_kept _ _ _ hc))
    · cases h; exact .refl s
  | waitPointReached n => exact kept_of_due h (setLane_engine _ _ (Lane.reachWaitPoint_step _))
  | gapPointReached n =>
    simp only [exec, execGapPointReached] at h
    split at h
    · exact kept_of_due h (raiseRequest_kept
        (putLane_engine _ _ (Lane.reachFramePoint_step _ _ _)))
    · cases h; exact .refl s
  | markPointReached n =>
    simp only [exec, execMarkPointReached] at h
    split at h
    · exact kept_of_due h (raiseRequest_kept
        (putLane_engine _ _ (Lane.reachFramePoint_step _ _ _)))
    · cases h; exact .refl s
  | tlimitExpiry n =>
    simp only [exec, execTlimitExpiry] at h
    split at h
    · exact kept_of_due h (raiseRequest_kept
        (putLane_engine _ _ (Lane.closeFrame_step _ _ _ _).thenFinish))
    · cases h; exact .refl s
  | mtimeoutExpiry n =>
    simp only [exec, execMtimeoutExpiry] at h
    split at h <;> cases h
    · exact raiseRequest_kept (putMeter_engine _ _ _ (Lane.endMeasurement_step _ _ _ _ _ _))
    · exact .refl s
  | firstIntervalBegin n =>
    simp only [exec, execFirstIntervalBegin] at h
    split at h
    · exact kept_of_due h (raiseRequest_kept (setLane_engine _ _ (Lane.firstInterval_step _ _ _)))
    · cases h; exact .refl s
  | intervalEnd n =>
    simp only [exec, execIntervalEnd] at h
    split at h
    · exact kept_of_due h (raiseRequest_kept (setLane_engine _ _ (Lane.endPlaying_step _ _ _)))
    · cases h; exact .refl s
  | trailingGapEnd n =>
    simp only [exec, execTrailingGapEnd] at h
    split at h
    · exact kept_of_due h (raiseRequest_kept (setLane_engine _ _ (Lane.endTrail_step _ _ _)))
    · cases h; exact .refl s
  | carrierPhase n =>
    simp only [exec, execCarrierPhase] at h
    split at h
    · exact kept_of_due h (setLane_engine _ _ ⟨rfl, rfl, rfl, id, id⟩)
    · cases h; exact .refl s
  | deviceReset => cases h; exact deviceReset_kept s
  | baseTick => exact kept_of_due h ((tick_kept _).after (lanesKept_of_eq rfl (clock_resplim _ _)))
  | holdoffExpiry => exact kept_of_due h (lanesKept_of_eq rfl rfl)
  | busGrant => cases h; exact grant_kept s
  | wordAck data => cases h; exact acknowledge_kept s data
  | fetchComplete data =>
    simp only [exec, execFetchComplete] at h
    split at h
    · exact kept_of_due h (acknowledge_kept s data)
    · cases h; exact .refl s
  | writeBack =>
    simp only [exec, execWriteBack] at h
    split at h
    · exact kept_of_due h (acknowledge_kept s 0)
    · cases h; exact .refl s
  | errorReply => cases h; exact failCycle_kept s true
  | noResponse => exact kept_of_due h (failCycle_kept s false)
  | softResetComplete => exact kept_of_due h (completeSoftReset_kept s)
  | start n a => cases h; exact hostWrite_kept s (startLane_kept s n)
  | stop n a => cases h; exact hostWrite_kept s (stopLane_kept s n)
  | abort n a => cases h; exact hostWrite_kept s (abortLane_kept s n)
  | skip n a => cases h; exact hostWrite_kept s (setLane_engine _ _ (Lane.skip_step _ _))
  | flush n a => cases h; exact hostWrite_kept s (flush_kept s n)
  | recover n a => cases h; exact hostWrite_kept s (setLane_engine _ _ (Lane.recover_step _))
  | reset n a => cases h; exact hostWrite_kept s (resetLane_kept s n _)
  | lcmdBadCommand n code a =>
    simp only [exec, execLcmdBadCommand] at h
    split at h <;> cases h
    · exact .refl s
    · exact hostWrite_kept s (badLaneCommand_kept s n)
  | snap => cases h; exact hostWrite_kept s (lanesKept_of_eq rfl rfl)
  | note => cases h; exact hostWrite_kept s (lanesKept_of_eq rfl rfl)
  | softReset => cases h; exact hostWrite_kept s (softReset_kept s)
  | gcmdUnknown code =>
    simp only [exec, execGcmdUnknown] at h
    split at h <;> cases h
    · exact .refl s
    · exact hostWrite_kept s (lanesKept_of_eq rfl rfl)
  | commit ix => cases h; exact hostWrite_kept s (commitProfile_kept s ix)
  | clear ix => cases h; exact hostWrite_kept s (clearProfile_kept s ix)
  | load ix => cases h; exact hostWrite_kept s (lanesKept_of_eq rfl rfl)
  | pcmdBadCommand code ix =>
    simp only [exec, execPcmdBadCommand] at h
    split at h <;> cases h
    · exact .refl s
    · exact hostWrite_kept s (lanesKept_of_eq rfl rfl)
  | controlWrite w => cases h; exact hostWrite_kept s (writeControl_kept s w)
  | prescWrite w => cases h; exact hostWrite_kept s (writePresc_kept s w)
  | resplimWrite w => cases h; exact hostWrite_kept s (writeResplim_kept s w)
  | irqctlWrite w => cases h; exact hostWrite_kept s (writeIrqctl_kept s w)
  | irqholdWrite w => cases h; exact hostWrite_kept s (lanesKept_of_eq rfl rfl)
  | evqpop w => cases h; exact hostWrite_kept s (lanesKept_of_eq rfl rfl)
  | fclr w => cases h; exact hostWrite_kept s (lanesKept_of_eq rfl rfl)
  | postedWrite n w => cases h; exact hostWrite_kept s (writePostedReg_kept s n w)
  | rbaseWrite n high w => cases h; exact hostWrite_kept s (writeRbase_kept s n high w)
  | rsizeWrite n w => cases h; exact hostWrite_kept s (writeRsize_kept s n w)
  | lcfgWrite n w => cases h; exact hostWrite_kept s (writeLcfg_kept s n w)
  | registerWrite size offset w =>
    cases size <;> cases h
    · exact .refl s
    · exact hostWrite_kept s (writeWindow_kept s offset w)

/-- Every step keeps every lane right: a command on the rest of the queue, a due happening, or one core
clock. -/
theorem step_kept (s t : State) (h : step s = .next t) : LanesKept s.ctl.enable s t := by
  unfold step at h
  split at h
  · next c rest _ =>
    exact (exec_kept c { s with pending := rest } t h).after (lanesKept_of_eq rfl rfl)
  · split at h
    · exact exec_kept _ s t h
    · cases h
      exact coreClock_kept s

end Sys2Proof.Laws
end

section
/-! SUPPORT. What every command does to the timebase and to ENABLE, and the obligations that rest on it: SNAP
and NOTE (O9), the glitch filter (O26), the settings and the rings (O57). -/

namespace Sys2Proof.Laws

open Sys2Proof.Machine Sys2Proof.Safety

/-- The timebase and ENABLE are unchanged. -/
abbrev timeKept (s t : State) : Prop := t.time = s.time ∧ t.ctl.enable = s.ctl.enable

/-- The command is a SNAP, or a write to GCMD made through REGISTER_WRITE (log 7). -/
abbrev mayAlterSnap (c : Instr) : Prop :=
  c = .snap ∨ ∃ o w, c = .registerWrite .word o w ∧ wordOffset o = 0x00C

/-- What command `c` can do to the timebase and to ENABLE. -/
inductive TimeMove (c : Instr) (s t : State) : Prop where
  | kept (h : timeKept s t)
  | tick (on : s.ctl.enable = true) (time : t.time = { s.time with count := s.time.count + 1, phase := 0 })
      (same : t.ctl.enable = s.ctl.enable)
  | control (w : Word) (h : t = s.writeControl w)
  | presc (w : Word) (h : t = s.writePresc w)
  | snap (h : t = s.snap) (which : mayAlterSnap c)
  | reset (h : t = s.deviceReset) (which : c = .deviceReset)

theorem timeKept_of_shared {s t : State} (h : sharedKept s t) : timeKept s t := by
  obtain ⟨_, htime, hctl, _⟩ := h
  exact ⟨htime, by rw [hctl]⟩

section
variable {c : Instr}

theorem TimeMove.ofShared {s t : State} (h : sharedKept s t) : TimeMove c s t :=
  .kept (timeKept_of_shared h)

theorem hostWrite_timeMove (s : State) {f : State → State} (h : TimeMove c s (f s)) :
    TimeMove c s (s.hostWrite f) := by
  obtain ⟨_, k⟩ | ⟨_, k⟩ := s.hostWrite_cases f <;> rw [k]
  · exact .kept ⟨rfl, rfl⟩
  · exact h

theorem softReset_timeKept (s : State) : timeKept s s.softReset := by
  unfold State.softReset
  split <;> exact ⟨rfl, rfl⟩

/-- The end of a word cycle keeps the time, whether it completes a soft reset or not (R179). -/
theorem acknowledge_timeKept (s : State) (data : Word) : timeKept s (s.acknowledge data) := by
  cases hp : s.ctl.resetPending with
  | false => exact timeKept_of_shared (acknowledge_shared s data hp)
  | true => obtain h | h := acknowledge_pending s data hp <;> rw [h] <;> exact ⟨rfl, rfl⟩

theorem failCycle_timeKept (s : State) (e : Bool) : timeKept s (s.failCycle e) := by
  cases hp : s.ctl.resetPending with
  | false => exact timeKept_of_shared (failCycle_shared s e hp)
  | true => obtain h | h := failCycle_pending s e hp <;> rw [h] <;> exact ⟨rfl, rfl⟩

theorem commitProfile_timeKept (s : State) (ix : ProfileIx) : timeKept s (s.commitProfile ix) := by
  unfold State.commitProfile
  split
  · exact ⟨State.raiseRequest_time _, congrArg Control.enable (State.raiseRequest_ctl _)⟩
  · exact ⟨rfl, rfl⟩

theorem clearProfile_timeKept (s : State) (ix : ProfileIx) : timeKept s (s.clearProfile ix) :=
  ⟨State.raiseRequest_time _, congrArg Control.enable (State.raiseRequest_ctl _)⟩

theorem profileCommand_timeKept (s : State) (code : BitVec 4) (ix : ProfileIx) :
    timeKept s (s.profileCommand code ix) := by
  unfold State.profileCommand
  split
  · exact commitProfile_timeKept _ _
  · split
    · exact clearProfile_timeKept _ _
    · split <;> exact ⟨rfl, rfl⟩

theorem writeResplim_timeKept (s : State) (w : Word) : timeKept s (s.writeResplim w) := by
  unfold State.writeResplim
  split <;> exact ⟨rfl, rfl⟩

theorem writeIrqctl_timeKept (s : State) (w : Word) : timeKept s (s.writeIrqctl w) := by
  unfold State.writeIrqctl
  split <;> exact ⟨rfl, rfl⟩

theorem globalCommand_timeMove (s : State) (code : BitVec 4) (hc : mayAlterSnap c) :
    TimeMove c s (s.globalCommand code) := by
  unfold State.globalCommand
  split
  · exact .snap rfl hc
  · split
    · exact .kept ⟨rfl, rfl⟩
    · split
      · exact .kept (softReset_timeKept s)
      · exact .kept ⟨rfl, rfl⟩

theorem writeGlobalReg_timeMove (s : State) (o : Nat) (w : Word) (hc : o = 0x00C → mayAlterSnap c) :
    TimeMove c s (s.writeGlobalReg o w) := by
  unfold State.writeGlobalReg
  split
  all_goals first
    | exact .control w rfl
    | exact .presc w rfl
    | exact .kept (writeResplim_timeKept _ _)
    | exact globalCommand_timeMove _ _ (hc rfl)
    | exact .kept (writeIrqctl_timeKept _ _)
    | exact .kept (profileCommand_timeKept _ _ _)
    | exact .kept ⟨rfl, rfl⟩

theorem writeWindow_timeMove (s : State) (o : BitVec 10) (w : Word) :
    TimeMove (.registerWrite .word o w) s (s.writeWindow o w) := by
  unfold State.writeWindow
  dsimp only
  split
  · exact writeGlobalReg_timeMove _ _ _ fun h => .inr ⟨o, w, rfl, h⟩
  · split
    · exact .kept ⟨rfl, rfl⟩
    · split
      · exact .ofShared (writeLaneReg_shared _ _ _ _)
      · exact .kept ⟨rfl, rfl⟩

end

/-- What every command can do to the timebase and to ENABLE. -/
theorem exec_timeMove (c : Instr) (s t : State) (h : exec c s = .next t) : TimeMove c s t := by
  cases c with
  | transition _ | edgeAccepted _ | waitPointReached _ | gapPointReached _ | markPointReached _
  | tlimitExpiry _ | mtimeoutExpiry _ | firstIntervalBegin _ | intervalEnd _ | trailingGapEnd _
  | carrierPhase _ => exact .ofShared (timed_shared _ s t rfl h)
  | deviceReset => cases h; exact .reset rfl rfl
  | baseTick =>
    simp only [exec, execBaseTick] at h
    split at h
    · next on => cases h; exact .tick on rfl rfl
    · cases h; exact .kept ⟨rfl, rfl⟩
  | holdoffExpiry =>
    simp only [exec, execHoldoffExpiry] at h
    split at h <;> cases h <;> exact .kept ⟨rfl, rfl⟩
  | busGrant => cases h; exact .ofShared (grant_shared s)
  | wordAck data => cases h; exact .kept (acknowledge_timeKept s data)
  | fetchComplete data =>
    simp only [exec, execFetchComplete] at h
    split at h
    · split at h <;> cases h
      · exact .kept (acknowledge_timeKept s data)
      · exact .kept ⟨rfl, rfl⟩
    · cases h; exact .kept ⟨rfl, rfl⟩
  | writeBack =>
    simp only [exec, execWriteBack] at h
    split at h
    · split at h <;> cases h
      · exact .kept (acknowledge_timeKept s 0)
      · exact .kept ⟨rfl, rfl⟩
    · cases h; exact .kept ⟨rfl, rfl⟩
  | errorReply => cases h; exact .kept (failCycle_timeKept s true)
  | noResponse =>
    simp only [exec, execNoResponse] at h
    split at h <;> cases h
    · exact .kept (failCycle_timeKept s false)
    · exact .kept ⟨rfl, rfl⟩
  | softResetComplete =>
    simp only [exec, execSoftResetComplete] at h
    split at h <;> cases h <;> exact .kept ⟨rfl, rfl⟩
  | start n a => cases h; exact hostWrite_timeMove s (.ofShared (startLane_shared s n))
  | stop n a => cases h; exact hostWrite_timeMove s (.ofShared (stopLane_shared s n))
  | abort n a => cases h; exact hostWrite_timeMove s (.ofShared (abortLane_shared s n))
  | skip n a => cases h; exact hostWrite_timeMove s (.kept ⟨rfl, rfl⟩)
  | flush n a =>
    cases h; exact hostWrite_timeMove s (.ofShared (shared_raise (putLane_shared _ _ _)))
  | recover n a => cases h; exact hostWrite_timeMove s (.kept ⟨rfl, rfl⟩)
  | reset n a => cases h; exact hostWrite_timeMove s (.ofShared (resetLane_shared s n _))
  | lcmdBadCommand n code a =>
    simp only [exec, execLcmdBadCommand] at h
    split at h <;> cases h
    · exact .kept ⟨rfl, rfl⟩
    · exact hostWrite_timeMove s (.kept ⟨rfl, rfl⟩)
  | snap => cases h; exact hostWrite_timeMove s (.snap rfl (.inl rfl))
  | note => cases h; exact hostWrite_timeMove s (.kept ⟨rfl, rfl⟩)
  | softReset => cases h; exact hostWrite_timeMove s (.kept (softReset_timeKept s))
  | gcmdUnknown code =>
    simp only [exec, execGcmdUnknown] at h
    split at h <;> cases h
    · exact .kept ⟨rfl, rfl⟩
    · exact hostWrite_timeMove s (.kept ⟨rfl, rfl⟩)
  | commit ix => cases h; exact hostWrite_timeMove s (.kept (commitProfile_timeKept s ix))
  | clear ix => cases h; exact hostWrite_timeMove s (.kept (clearProfile_timeKept s ix))
  | load ix => cases h; exact hostWrite_timeMove s (.kept ⟨rfl, rfl⟩)
  | pcmdBadCommand code ix =>
    simp only [exec, execPcmdBadCommand] at h
    split at h <;> cases h
    · exact .kept ⟨rfl, rfl⟩
    · exact hostWrite_timeMove s (.kept ⟨rfl, rfl⟩)
  | controlWrite w => cases h; exact hostWrite_timeMove s (.control w rfl)
  | prescWrite w => cases h; exact hostWrite_timeMove s (.presc w rfl)
  | resplimWrite w => cases h; exact hostWrite_timeMove s (.kept (writeResplim_timeKept s w))
  | irqctlWrite w => cases h; exact hostWrite_timeMove s (.kept (writeIrqctl_timeKept s w))
  | irqholdWrite w => cases h; exact hostWrite_timeMove s (.kept ⟨rfl, rfl⟩)
  | evqpop w => cases h; exact hostWrite_timeMove s (.kept ⟨rfl, rfl⟩)
  | fclr w => cases h; exact hostWrite_timeMove s (.kept ⟨rfl, rfl⟩)
  | postedWrite n w => cases h; exact hostWrite_timeMove s (.ofShared (writePostedReg_shared s n w))
  | rbaseWrite n high w => cases h; exact hostWrite_timeMove s (.ofShared (ringWrite_shared s n _))
  | rsizeWrite n w => cases h; exact hostWrite_timeMove s (.ofShared (ringWrite_shared s n _))
  | lcfgWrite n w => cases h; exact hostWrite_timeMove s (.ofShared (lockedWrite_shared s n _))
  | registerWrite size offset w =>
    cases size <;> cases h
    · exact .kept ⟨rfl, rfl⟩
    · exact hostWrite_timeMove s (writeWindow_timeMove s offset w)

/-! ## CONTROL and PRESC -/

/-- What a write to CONTROL does (R177, R2): it leaves the time and ENABLE alone, it sets ENABLE, or it clears
ENABLE with no lane busy; the last two clear the phase. -/
theorem writeControl_cases (s : State) (w : Word) :
    timeKept s (s.writeControl w)
    ∨ ((s.writeControl w).ctl.enable = true ∧ (s.writeControl w).time = { s.time with phase := 0 })
    ∨ ((s.writeControl w).ctl.enable = false ∧ (s.writeControl w).time = { s.time with phase := 0 }
        ∧ s.laneBusy = false) := by
  unfold State.writeControl
  split
  · exact .inl ⟨rfl, rfl⟩
  · split
    · exact .inr (.inl ⟨rfl, rfl⟩)
    · split
      · exact .inl ⟨rfl, rfl⟩
      · next h => exact .inr (.inr ⟨rfl, rfl, by simpa using h⟩)

@[simp] theorem writeControl_lane (s : State) (w : Word) (n : LaneId) :
    (s.writeControl w).lane n = s.lane n := by
  unfold State.writeControl
  split
  · rfl
  · split
    · rfl
    · split <;> rfl

/-- What a write to PRESC does (R2): nothing to the time, or, with ENABLE 0, PRESCALE takes a value from 1 to
256. -/
theorem writePresc_cases (s : State) (w : Word) :
    timeKept s (s.writePresc w)
    ∨ (s.ctl.enable = false ∧ 1 ≤ (prescaleField w).toNat ∧ (prescaleField w).toNat ≤ 256
        ∧ (s.writePresc w).time = { s.time with prescale := prescaleField w }
        ∧ (s.writePresc w).ctl.enable = s.ctl.enable) := by
  unfold State.writePresc
  split
  · exact .inl ⟨rfl, rfl⟩
  · next h =>
    obtain ⟨hon, h⟩ := not_or.mp h
    obtain ⟨hzero, hmax⟩ := not_or.mp h
    refine .inr ⟨by simpa using hon, Nat.pos_of_ne_zero fun k => hzero ?_, by omega, rfl, rfl⟩
    exact BitVec.eq_of_toNat_eq (by simpa using k)

/-! ## SNAP and NOTE -/

/-- Only SNAP, DEVICE_RESET and a write to GCMD change TSNAP (R4). -/
theorem tsnap_kept (c : Instr) (s t : State) (h : exec c s = .next t) :
    t.time.tsnap = s.time.tsnap ∨ mayAlterSnap c ∨ c = .deviceReset := by
  cases exec_timeMove c s t h with
  | kept h => exact .inl (by rw [h.1])
  | tick _ time _ => exact .inl (by rw [time])
  | control w h =>
    subst h
    obtain ⟨h, _⟩ | ⟨_, h⟩ | ⟨_, h, _⟩ := writeControl_cases s w <;> exact .inl (by rw [h])
  | presc w h =>
    subst h
    obtain ⟨h, _⟩ | ⟨_, _, _, h, _⟩ := writePresc_cases s w <;> exact .inl (by rw [h])
  | snap _ which => exact .inr (.inl which)
  | reset _ which => exact .inr (.inr which)

/-- Settles O9: SNAP and NOTE by evaluation, and what else may change TSNAP from the inversion of every
command. -/
theorem snapCopiesCountNotePostsTag : Obligations.SnapCopiesCountNotePostsTag := by
  refine ⟨⟨fun s hp => ⟨s.snap, ?_, rfl, rfl, rfl⟩, fun s t hp on ht => ?_, fun c s t h => ?_⟩,
    fun s hp => ?_⟩
  · simp [exec, execSnap, hp]
  · have hticked : t = State.tick { s with bus := s.bus.clock (s.time.prescale.toNat - s.time.phase) } := by
      simpa [exec, execBaseTick, on] using ht.symm
    have hpt : t.ctl.resetPending = false := by rw [hticked]; exact hp
    exact ⟨t.snap, by simp [exec, execSnap, hpt], by rw [hticked]; rfl⟩
  · obtain h | (h | h) | h := tsnap_kept c s t h
    · exact .inl h
    · exact .inr (.inl h)
    · exact .inr (.inr (.inr h))
    · exact .inr (.inr (.inl h))
  · simp only [exec, execNote, State.hostWrite_taken s _ hp]
    rfl

/-! ## What every step keeps -/

/-- A step is a command on some queue of waiting commands, or one core clock. -/
theorem step_cases (s t : State) (h : step s = .next t) :
    (∃ c rest, exec c { s with pending := rest } = .next t) ∨ t = s.coreClock := by
  unfold step at h
  split at h
  · next c rest _ => exact .inl ⟨c, rest, h⟩
  · split at h
    · next c _ => exact .inl ⟨c, s.pending, h⟩
    · cases h
      exact .inr rfl

theorem keptByStep_of_next {P : State → Prop} (h : ∀ s t, P s → step s = .next t → P t) :
    keptByStep P := by
  intro s hs
  cases k : step s with
  | next t => exact h s t hs k
  | fault _ | refused _ => trivial

/-- Settles O26: every command keeps the filter of every lane. -/
theorem pendingChangeMeansLevelsDiffer : Obligations.PendingChangeMeansLevelsDiffer :=
  keptByStep_of_next fun s t hs h n => ((step_kept s t h).lane n).filter (hs n)

/-- A lane at work is one of those that keep CONTROL from clearing ENABLE (R177). -/
theorem laneBusy_of_active (s : State) (n : LaneId) (h : (s.lane n).life.active = true) :
    s.laneBusy = true := by
  refine List.any_eq_true.mpr ⟨n, Eight.mem_numbers n, ?_⟩
  cases hl : (s.lane n).life <;> simp_all [Life.active, Life.fetches]

/-- A right timebase and the lanes' rule of R1 are kept by any command. -/
theorem settings_of_timeMove {c : Instr} {s t : State} (move : TimeMove c s t)
    (lanes : LanesKept s.ctl.enable s t) (time : timeOk s) (work : enabledWhileActive s) :
    timeOk t ∧ enabledWhileActive t := by
  obtain ⟨hlow, hhigh, hphase, hoff⟩ := time
  have on (n : LaneId) (h : (t.lane n).life.active = true) : s.ctl.enable = true :=
    ((lanes.lane n).work h).elim (work n) id
  have kept (h : timeKept s t) : timeOk t ∧ enabledWhileActive t := by
    obtain ⟨htime, hon⟩ := h
    unfold timeOk enabledWhileActive
    rw [htime, hon]
    exact ⟨⟨hlow, hhigh, hphase, hoff⟩, on⟩
  cases move with
  | kept h => exact kept h
  | tick _ htime hon =>
    unfold timeOk enabledWhileActive
    rw [htime, hon]
    exact ⟨⟨hlow, hhigh, hlow, fun _ => rfl⟩, on⟩
  | control w h =>
    subst h
    obtain h | ⟨hon, h⟩ | ⟨hon, h, hbusy⟩ := writeControl_cases s w
    · exact kept h
    · unfold timeOk enabledWhileActive
      rw [h, hon]
      exact ⟨⟨hlow, hhigh, hlow, fun _ => rfl⟩, fun _ _ => rfl⟩
    · unfold timeOk enabledWhileActive
      rw [h, hon]
      refine ⟨⟨hlow, hhigh, hlow, fun _ => rfl⟩, fun n k => ?_⟩
      rw [writeControl_lane] at k
      exact absurd (laneBusy_of_active s n k) (by simp [hbusy])
  | presc w h =>
    subst h
    obtain h | ⟨hs, hmin, hmax, h, hon⟩ := writePresc_cases s w
    · exact kept h
    · unfold timeOk enabledWhileActive
      rw [h, hon]
      have hzero := hoff hs
      exact ⟨⟨hmin, hmax, by simp only [hzero]; exact hmin, hoff⟩, on⟩
  | snap h _ =>
    subst h
    exact ⟨⟨hlow, hhigh, hphase, hoff⟩, on⟩
  | reset h _ =>
    subst h
    refine ⟨show timeOk State.reset by decide, fun n k => ?_⟩
    simp [State.deviceReset, State.lane, Lane.afterReset, Life.active] at k

/-- One core clock keeps the phase below PRESCALE (R2). -/
theorem coreClock_timeOk (s : State) (h : timeOk s) : timeOk s.coreClock := by
  obtain ⟨hlow, hhigh, hphase, hoff⟩ := h
  unfold State.coreClock
  dsimp only
  split
  · next on =>
    split
    · exact ⟨hlow, hhigh, hlow, fun _ => rfl⟩
    · next hp =>
      refine ⟨hlow, hhigh, Nat.lt_of_not_le hp, fun off => ?_⟩
      exact absurd (on.symm.trans off) (by decide)
  · exact ⟨hlow, hhigh, hphase, hoff⟩

@[simp] theorem coreClock_ctl (s : State) : s.coreClock.ctl = s.ctl := by
  unfold State.coreClock
  dsimp only
  split
  · split <;> rfl
  · rfl

/-- Settles O57: what a step does to the time, and what it keeps of the lanes. -/
theorem settingsAndRingsStayRight : Obligations.SettingsAndRingsStayRight := by
  refine keptByStep_of_next fun s t ⟨time, work, resplim, rings⟩ h => ?_
  have lanes := step_kept s t h
  suffices timeOk t ∧ enabledWhileActive t from
    ⟨this.1, this.2, lanes.resplim resplim, fun n => (lanes.lane n).ring (rings n)⟩
  obtain ⟨c, rest, h⟩ | rfl := step_cases s t h
  · exact settings_of_timeMove (exec_timeMove c _ t h) (exec_kept c _ t h) time work
  · refine ⟨coreClock_timeOk s time, fun n k => ?_⟩
    rw [coreClock_ctl]
    exact ((lanes.lane n).work k).elim (work n) id

end Sys2Proof.Laws
end

section
/-! SUPPORT. The timed happenings in the order of log 8, what a base tick and a core clock do, and the
obligations that rest on them: BASE_TICK (O6) and the idle step (O2). -/

namespace Sys2Proof.Laws

open Sys2Proof.Machine Sys2Proof.Safety

/-! ## The happenings that time brings -/

/-- The timed happenings of lane `n` in the order of log 8. -/
def timedOn (n : LaneId) : List Instr :=
  [.edgeAccepted n, .mtimeoutExpiry n, .gapPointReached n, .markPointReached n, .tlimitExpiry n,
    .waitPointReached n, .firstIntervalBegin n, .intervalEnd n, .trailingGapEnd n, .carrierPhase n]

/-- Every timed happening, in the order of log 8. -/
def timedHappenings : List Instr :=
  Eight.numbers.flatMap timedOn ++ [.holdoffExpiry, .noResponse]

/-- The command reports a happening that the model finds due. -/
def dueNow (s : State) : Instr → Bool
  | .edgeAccepted n => s.edgeDue n
  | .mtimeoutExpiry n => (s.timedOutUnit n).isSome
  | .gapPointReached n => (s.lane n).openFrame.any ((s.lane n).gapDue s.time.count)
  | .markPointReached n => (s.lane n).openFrame.any ((s.lane n).markDue s.time.count)
  | .tlimitExpiry n => (s.lane n).openFrame.any fun f => decide ((s.lane n).tlimitReached s.time.count f)
  | .waitPointReached n => (s.lane n).waitDue s.time.count
  | .firstIntervalBegin n => (s.lane n).rep.current.any (s.lane n).firstDue
  | .intervalEnd n => (s.lane n).rep.current.any (s.lane n).intervalDue
  | .trailingGapEnd n => (s.lane n).rep.current.any (s.lane n).trailDue
  | .carrierPhase n => (s.lane n).rep.current.any fun c => decide ((s.lane n).carrierDue c)
  | .holdoffExpiry => s.queue.holdoffDue s.time.count
  | .noResponse => s.bus.responseDue
  | _ => false

/-- The open frame is the frame of a capture lane at work that is IN_FRAME. -/
theorem openFrame_eq_some (l : Lane) (f : Frame) :
    l.openFrame = some f ↔ l.runs .capture ∧ l.cap.cstate = .inFrame ∧ l.cap.frame = some f := by
  unfold Lane.openFrame
  split
  · next h => exact ⟨fun k => ⟨h.1, h.2, k⟩, fun k => k.2.2⟩
  · next h => exact ⟨fun k => (nomatch k), fun k => absurd ⟨k.1, k.2.1⟩ h⟩

/-- With a frame open no idle wait is under way. -/
theorem waitDue_of_openFrame (l : Lane) (now : Stamp) (f : Frame) (h : l.openFrame = some f) :
    l.waitDue now = false := by
  obtain ⟨_, hc, _⟩ := (openFrame_eq_some l f).mp h
  simp [Lane.waitDue, hc]

/-- A search that meets its first member decides by it. -/
theorem find?_cons_ite {α : Type} (p : α → Bool) (a : α) (as : List α) :
    (a :: as).find? p = if p a then some a else as.find? p := by
  cases h : p a <;> simp [h]

theorem dueCapture_eq (s : State) (n : LaneId) :
    (s.lane n).dueCapture s.time.count n = [Instr.gapPointReached n, .markPointReached n,
      .tlimitExpiry n, .waitPointReached n].find? (dueNow s) := by
  unfold Lane.dueCapture
  simp only [find?_cons_ite, List.find?_nil, dueNow]
  split
  · next f h =>
    simp only [h, Option.any_some, decide_eq_true_eq, waitDue_of_openFrame _ _ f h,
      Bool.false_eq_true, if_false]
  · next h => simp only [h, Option.any_none, Bool.false_eq_true, if_false]; rfl

theorem dueReplay_eq (s : State) (n : LaneId) :
    (s.lane n).dueReplay n = [Instr.firstIntervalBegin n, .intervalEnd n, .trailingGapEnd n,
      .carrierPhase n].find? (dueNow s) := by
  unfold Lane.dueReplay
  simp only [find?_cons_ite, List.find?_nil, dueNow]
  split
  · next h => simp only [h, Option.any_none, Bool.false_eq_true, if_false]
  · next c h => simp only [h, Option.any_some, decide_eq_true_eq]

theorem dueLane_eq (s : State) (n : LaneId) : s.dueLane n = (timedOn n).find? (dueNow s) := by
  have parts : timedOn n = [.edgeAccepted n, .mtimeoutExpiry n] ++
      ([.gapPointReached n, .markPointReached n, .tlimitExpiry n, .waitPointReached n] ++
        [.firstIntervalBegin n, .intervalEnd n, .trailingGapEnd n, .carrierPhase n]) := rfl
  unfold State.dueLane
  rw [parts, List.find?_append, List.find?_append, ← dueCapture_eq, ← dueReplay_eq]
  rw [find?_cons_ite, find?_cons_ite, List.find?_nil,
    show dueNow s (.edgeAccepted n) = s.edgeDue n from rfl,
    show dueNow s (.mtimeoutExpiry n) = (s.timedOutUnit n).isSome from rfl]
  split
  · rfl
  · split <;> rfl

/-- The model takes the first of the timed happenings that it finds due. -/
theorem due_eq (s : State) : s.due = timedHappenings.find? (dueNow s) := by
  unfold State.due timedHappenings
  rw [List.find?_append, List.find?_flatMap]
  simp only [find?_cons_ite, List.find?_nil, dueNow, dueLane_eq]
  rfl

/-- A running timeout has been reached (R79). -/
theorem timedOut_iff (u : MeterUnit) (r : LaneRegs) (now : Stamp) :
    u.timedOut r now = true ↔ ∃ start, u.timeout = some start ∧ limitReached now start r.mtimeout := by
  unfold MeterUnit.timedOut
  cases u.timeout with
  | none => simp
  | some start =>
    rw [decide_eq_true_iff]
    exact ⟨fun h => ⟨start, rfl, h⟩, fun ⟨_, k, h⟩ => Option.some.inj k ▸ h⟩

/-- The unit whose timeout has been reached is the one a meter lane at work holds (R79). -/
theorem timedOutUnit_eq_some (s : State) (n : LaneId) (u : UnitId) :
    s.timedOutUnit n = some u ↔ (s.lane n).runs .meter ∧ s.meters.heldBy n = some u
      ∧ ((s.meters.get u).state = .armed ∨ (s.meters.get u).state = .counting)
      ∧ (s.meters.get u).timedOut (s.lane n).regs s.time.count = true := by
  unfold State.timedOutUnit
  dsimp only
  by_cases hr : (s.lane n).runs .meter
  · rw [if_pos hr]
    cases hu : s.meters.heldBy n with
    | none => exact ⟨fun k => (nomatch k), fun ⟨_, k, _⟩ => (nomatch k)⟩
    | some v =>
      dsimp only
      split
      · next h =>
        constructor
        · intro k
          cases k
          exact ⟨hr, rfl, h⟩
        · exact fun k => k.2.1
      · next h =>
        refine ⟨fun k => (nomatch k), fun ⟨_, k, due⟩ => absurd ?_ h⟩
        cases k
        exact due
  · rw [if_neg hr]
    exact ⟨fun k => (nomatch k), fun k => absurd k.1 hr⟩

/-- The model finds a happening due exactly where its moment has come. -/
theorem dueNow_iff (s : State) (c : Instr) : dueNow s c = true ↔ isDue s c := by
  cases c with
  | edgeAccepted n =>
    simp only [dueNow, isDue, State.edgeDue]
    cases h : (s.lane n).fe.change with
    | none => simp
    | some c => simp [Lane.confirmed, LaneRegs.filterWidth, Lane.nowTick, laneTick]
  | mtimeoutExpiry n =>
    simp only [dueNow, isDue, Option.isSome_iff_exists, timedOutUnit_eq_some, timedOut_iff]
    constructor
    · rintro ⟨u, hr, hu, hs, start, ht, hl⟩
      exact ⟨hr, u, start, hu, hs, ht, hl⟩
    · rintro ⟨hr, u, start, hu, hs, ht, hl⟩
      exact ⟨u, hr, hu, hs, start, ht, hl⟩
  | gapPointReached n =>
    simp only [dueNow, isDue, Option.any_eq_true, openFrame_eq_some, Lane.gapDue, decide_eq_true_iff]
    constructor
    · rintro ⟨f, ⟨hr, hc, hf⟩, hw, hm, hl⟩
      exact ⟨hr, hc, hw, f, hf, hm, hl⟩
    · rintro ⟨hr, hc, hw, f, hf, hm, hl⟩
      exact ⟨f, ⟨hr, hc, hf⟩, hw, hm, hl⟩
  | markPointReached n =>
    simp only [dueNow, isDue, Option.any_eq_true, openFrame_eq_some, Lane.markDue, decide_eq_true_iff]
    constructor
    · rintro ⟨f, ⟨hr, hc, hf⟩, hw, hm, hl⟩
      exact ⟨hr, hc, hw, f, hf, hm, hl⟩
    · rintro ⟨hr, hc, hw, f, hf, hm, hl⟩
      exact ⟨f, ⟨hr, hc, hf⟩, hw, hm, hl⟩
  | tlimitExpiry n =>
    simp only [dueNow, isDue, Option.any_eq_true, openFrame_eq_some, decide_eq_true_iff]
    constructor
    · rintro ⟨f, ⟨hr, hc, hf⟩, hl⟩
      exact ⟨hr, hc, f, hf, hl⟩
    · rintro ⟨hr, hc, f, hf, hl⟩
      exact ⟨f, ⟨hr, hc, hf⟩, hl⟩
  | waitPointReached n => exact decide_eq_true_iff
  | firstIntervalBegin n =>
    simp only [dueNow, isDue, Option.any_eq_true, Lane.firstDue, Bool.and_eq_true, decide_eq_true_iff]
    constructor
    · rintro ⟨c, hc, ⟨hr, hp⟩, ht⟩
      exact ⟨hr, c, hc, hp, ht⟩
    · rintro ⟨hr, c, hc, hp, ht⟩
      exact ⟨c, hc, ⟨hr, hp⟩, ht⟩
  | intervalEnd n =>
    simp only [dueNow, isDue, Option.any_eq_true, Lane.intervalDue, Bool.and_eq_true, decide_eq_true_iff]
    constructor
    · rintro ⟨c, hc, hr, hp⟩
      split at hp
      · next p h => exact ⟨hr, c, p, hc, h, of_decide_eq_true hp⟩
      · cases hp
    · rintro ⟨hr, c, p, hc, hp, hl⟩
      exact ⟨c, hc, hr, by rw [hp]; exact decide_eq_true hl⟩
  | trailingGapEnd n =>
    simp only [dueNow, isDue, Option.any_eq_true, Lane.trailDue, decide_eq_true_iff]
    constructor
    · rintro ⟨c, hc, hr, hg⟩
      exact ⟨hr, c, hc, hg⟩
    · rintro ⟨hr, c, hc, hg⟩
      exact ⟨c, hc, hr, hg⟩
  | carrierPhase n =>
    simp only [dueNow, isDue, Option.any_eq_true, decide_eq_true_iff]
    constructor
    · rintro ⟨c, hc, hr, hm, hp⟩
      unfold ReplayRecord.inCarrierMark at hm
      obtain ⟨hcar, hm⟩ := Bool.and_eq_true_iff.mp hm
      split at hm
      · next p h => exact ⟨hr, c, p, hc, hcar, h, hm, hp⟩
      · cases hm
    · rintro ⟨hr, c, p, hc, hcar, hpl, hm, hp⟩
      exact ⟨c, hc, hr, by simp [ReplayRecord.inCarrierMark, hcar, hpl, hm], hp⟩
  | holdoffExpiry =>
    simp only [dueNow, isDue, EventQueue.holdoffDue]
    cases h : s.queue.timer with
    | none => simp
    | some t =>
      dsimp only
      rw [decide_eq_true_iff]
      exact ⟨fun k => ⟨t, rfl, k⟩, fun ⟨_, e, k⟩ => Option.some.inj e ▸ k⟩
  | noResponse =>
    simp only [dueNow, isDue, BusMaster.responseDue]
    cases h : s.bus.burst <;> simp
  | _ => simp [dueNow, isDue]

/-! ## The order of log 8 -/

/-- The places of the timed happenings are 0 to 81, in their order. -/
theorem timedHappenings_ranks : timedHappenings.map dueRank = List.range 82 := by decide

theorem timedHappenings_sorted :
    timedHappenings.Pairwise fun c d => dueRank c < dueRank d := by
  rw [← List.pairwise_map (f := dueRank) (R := (· < ·)), timedHappenings_ranks]
  exact List.pairwise_lt_range

theorem mem_timedHappenings (n : LaneId) {c : Instr} (h : c ∈ timedOn n) : c ∈ timedHappenings :=
  List.mem_append_left _ (List.mem_flatMap.mpr ⟨n, Eight.mem_numbers n, h⟩)

theorem mem_of_isDue (s : State) (c : Instr) (h : isDue s c) : c ∈ timedHappenings := by
  cases c with
  | edgeAccepted n | mtimeoutExpiry n | gapPointReached n | markPointReached n | tlimitExpiry n
  | waitPointReached n | firstIntervalBegin n | intervalEnd n | trailingGapEnd n
  | carrierPhase n => exact mem_timedHappenings n (by simp [timedOn])
  | holdoffExpiry | noResponse => exact List.mem_append_right _ (by simp)
  | _ => exact h.elim

/-- In a list of rising rank the search finds the member that meets the test with the least rank. -/
theorem find?_eq_of_least {α : Type} {p : α → Bool} {rank : α → Nat} {as : List α}
    (sorted : as.Pairwise fun a b => rank a < rank b) {a : α} (mem : a ∈ as) (ha : p a = true)
    (least : ∀ b, p b = true → rank a ≤ rank b) : as.find? p = some a := by
  obtain ⟨before, behind, rfl⟩ := List.append_of_mem mem
  refine List.find?_eq_some_iff_append.mpr ⟨ha, before, behind, rfl, fun b hb => ?_⟩
  obtain ⟨_, _, across⟩ := List.pairwise_append.mp sorted
  have lower : rank b < rank a := across b hb a List.mem_cons_self
  cases hp : p b with
  | false => rfl
  | true => exact absurd (least b hp) (Nat.not_le.mpr lower)

/-- The model takes the happening that is due and comes first. -/
theorem due_of_least (s : State) (c : Instr) (hc : isDue s c)
    (least : ∀ d, isDue s d → dueRank c ≤ dueRank d) : s.due = some c := by
  rw [due_eq]
  exact find?_eq_of_least timedHappenings_sorted (mem_of_isDue s c hc) ((dueNow_iff s c).mpr hc)
    fun d hd => least d ((dueNow_iff s d).mp hd)

theorem due_none (s : State) (h : ∀ c, ¬ isDue s c) : s.due = none := by
  rw [due_eq, List.find?_eq_none]
  exact fun c _ hc => h c ((dueNow_iff s c).mp hc)

/-! ## A base tick and a core clock -/

theorem burst_eq_some (m : BusMaster) (b : Burst) : m.burst = some b ↔ m.bstate = .owned b := by
  unfold BusMaster.burst
  cases m.bstate <;> simp

/-- The word cycle in progress ages (R155). -/
theorem clock_of_burst (m : BusMaster) (b : Burst) (clocks : Nat) (h : m.burst = some b) :
    m.clock clocks = { m with
      bstate := .owned { b with
        cycle := { b.cycle with elapsed := b.cycle.elapsed + clocks } } } := by
  unfold BusMaster.clock
  rw [(burst_eq_some m b).mp h]

theorem clock_of_none (m : BusMaster) (clocks : Nat) (h : m.burst = none) : m.clock clocks = m := by
  unfold BusMaster.clock
  split
  · next b hb => exact absurd ((burst_eq_some m b).mpr hb) (by simp [h])
  · rfl

/-- The replay engine of a lane counts a base tick (R99, R101, R102). -/
theorem baseTickOn_tick (l : Lane) : baseTickOn l l.tick := by
  have current : l.tick.rep.current = l.rep.current.map fun c => c.tick l.rep.rstate := rfl
  refine ⟨rfl, fun h => by rw [current, h]; rfl, fun c hc => ?_⟩
  rw [current, hc, Option.map_some]
  refine ⟨fun p hs hp => ?_, fun hs hp => ?_, fun hs => ?_, fun hplay htrail => ?_⟩
  · simp [ReplayRecord.tick, hs, hp]
  · simp [ReplayRecord.tick, hs, hp]
  · simp [ReplayRecord.tick, hs]
  · cases hs : l.rep.rstate <;> simp_all [ReplayRecord.tick]

theorem tick_lane (s : State) (n : LaneId) : s.tick.lane n = (s.lane n).tick :=
  Eight.get_mapIdx _ _ _

/-- Settles O6: the engines of all lanes count the tick the timebase takes. -/
theorem baseTickCounts : Obligations.BaseTickCounts := by
  intro s
  refine ⟨fun off => by simp [exec, execBaseTick, off], fun on => ?_⟩
  refine ⟨State.tick { s with bus := s.bus.clock (s.time.prescale.toNat - s.time.phase) },
    by simp [exec, execBaseTick, on], rfl, rfl, rfl, rfl, rfl, rfl, rfl, rfl,
    clock_of_none s.bus _, fun b => clock_of_burst s.bus b _, fun n => ?_⟩
  rw [tick_lane]
  exact baseTickOn_tick _

/-! ## The idle step -/

theorem step_due (s : State) (c : Instr) (hp : s.pending = []) (h : s.due = some c) :
    step s = exec c s := by
  unfold step
  rw [hp, h]

theorem step_clock (s : State) (hp : s.pending = []) (h : s.due = none) :
    step s = .next s.coreClock := by
  unfold step
  rw [hp, h]

/-- What one core clock does (R2): the word cycle in progress ages; with ENABLE 1 the phase counts, or a base
tick comes where it reaches PRESCALE. -/
theorem coreClock_cases (s : State) :
    (s.ctl.enable = false ∧ s.coreClock = { s with bus := s.bus.clock 1 })
    ∨ (s.ctl.enable = true ∧ s.time.phase + 1 < s.time.prescale.toNat
        ∧ s.coreClock = { s with
            bus := s.bus.clock 1, time := { s.time with phase := s.time.phase + 1 } })
    ∨ (s.ctl.enable = true ∧ s.time.prescale.toNat ≤ s.time.phase + 1
        ∧ s.coreClock = State.tick { s with bus := s.bus.clock 1 }) := by
  unfold State.coreClock
  dsimp only
  cases on : s.ctl.enable with
  | false => exact .inl ⟨rfl, rfl⟩
  | true =>
    by_cases h : s.time.prescale.toNat ≤ s.time.phase + 1
    · exact .inr (.inr ⟨rfl, h, by rw [if_pos rfl, if_pos h]⟩)
    · exact .inr (.inl ⟨rfl, by omega, by rw [if_pos rfl, if_neg h]⟩)

/-- What one core clock leaves alone, and what it does to the bus. -/
theorem coreClock_frame (s : State) :
    s.coreClock.pending = s.pending ∧ s.coreClock.ctl = s.ctl ∧ s.coreClock.table = s.table
    ∧ s.coreClock.staging = s.staging ∧ s.coreClock.presult = s.presult
    ∧ s.coreClock.meters = s.meters ∧ s.coreClock.queue = s.queue
    ∧ s.coreClock.bus = s.bus.clock 1 := by
  obtain ⟨_, h⟩ | ⟨_, _, h⟩ | ⟨_, _, h⟩ := coreClock_cases s <;> rw [h] <;>
    exact ⟨rfl, rfl, rfl, rfl, rfl, rfl, rfl, rfl⟩

/-- Settles O2: the model's search in the order of log 8 finds the first happening due, and one core clock
passes where it finds none. -/
theorem idleStepTakesDueOrOneClock : Obligations.IdleStepTakesDueOrOneClock := by
  intro s hp
  refine ⟨fun c hc least => step_due s c hp (due_of_least s c hc least), fun none => ?_⟩
  obtain ⟨hpend, hctl, htable, hstag, hpres, hmet, hqueue, hbus⟩ := coreClock_frame s
  refine ⟨s.coreClock, step_clock s hp (due_none s none), hpend, hctl, htable, hstag, hpres, hmet,
    hqueue, ?_, ?_, ?_, fun b hb => hbus.trans (clock_of_burst s.bus b 1 hb),
    fun hb => hbus.trans (clock_of_none s.bus 1 hb)⟩
  · intro off
    obtain ⟨_, h⟩ | ⟨on, _⟩ | ⟨on, _⟩ := coreClock_cases s
    · rw [h]; exact ⟨rfl, rfl⟩
    · exact absurd (on.symm.trans off) (by decide)
    · exact absurd (on.symm.trans off) (by decide)
  · intro on hphase
    obtain ⟨off, _⟩ | ⟨_, _, h⟩ | ⟨_, hk, _⟩ := coreClock_cases s
    · exact absurd (on.symm.trans off) (by decide)
    · rw [h]; exact ⟨rfl, rfl⟩
    · omega
  · intro on hphase
    obtain ⟨off, _⟩ | ⟨_, hk, _⟩ | ⟨_, _, h⟩ := coreClock_cases s
    · exact absurd (on.symm.trans off) (by decide)
    · omega
    · rw [h]
      exact ⟨rfl, fun n => tick_lane _ n ▸ baseTickOn_tick _⟩

end Sys2Proof.Laws
end

section
/-! SUPPORT. What the commands of the lane front end and the limit points of a capture lane do, and the
obligations that rest on it: TRANSITION (O21), EDGE_ACCEPTED (O22, O23), the waiting decision (O24) and the
limit points (O27). -/

namespace Sys2Proof.Laws

open Sys2Proof.Machine Sys2Proof.Safety

/-! ## The outcomes of a lane's step -/

/-- A lane's step and the bus request that may follow it concern the lane alone. -/
theorem setLane_laneOnly (s : State) (n : LaneId) (l : Lane) :
    laneOnly n s (s.setLane n l).raiseRequest ∧ (s.setLane n l).raiseRequest.lane n = l :=
  ⟨⟨shared_raise (setLane_shared s n l), others_raise (setLane_others s n l), busKept_raise rfl,
    by simp, by simp⟩, by simp⟩

theorem putLane_lanePosts (s : State) (n : LaneId) (o : LaneOut) :
    lanePosts n (eventsOf n o.posts) s (s.putLane n o).raiseRequest
      ∧ (s.putLane n o).raiseRequest.lane n = o.lane :=
  ⟨⟨shared_raise (putLane_shared s n o), others_raise (putLane_others s n o),
    busKept_raise (by simp), by simp, by simp [eventsOf, List.foldl_map]⟩, by simp⟩

theorem putMeter_meterLeaves (s : State) (n : LaneId) (u : UnitId) (o : MeterOut) :
    meterLeaves n u o.lane o.unit o.posts s (s.putMeter n u o).raiseRequest :=
  ⟨shared_raise (putMeter_shared s n u o), others_raise (putMeter_others s n u o),
    busKept_raise (by simp), by simp, by simp, fun _ hv => by simp [hv],
    by simp [eventsOf, List.foldl_map]⟩

/-- The assembler of a capture lane finishes with the frame and the records (R43). -/
theorem finishCapture_of_work (k : Lane)
    (h : k.life = .running ∨ k.cap.frame ≠ none ∨ k.cap.records ≠ []) :
    k.finishCapture = k.quiet := by
  obtain ⟨e, _, hf, hr, hl, _⟩ | h' := k.finishCapture_cases
  · obtain h | h | h := h
    · rw [hl] at h; cases h
    · exact absurd hf h
    · exact absurd hr h
  · exact h'

theorem finishCapture_stopping (k : Lane) (e : Ending) (hm : k.regs.lmode = .capture)
    (hl : k.life = .stopping e) (hf : k.cap.frame = none) (hr : k.cap.records = []) :
    k.finishCapture = ⟨{ k with
      life := .stopped
      cap := { k.cap with cstate := .inactive, waiting := false }
      ring := k.ring.withdraw }, [(.laneStopped, endingCode e)]⟩ := by
  unfold Lane.finishCapture
  rw [if_pos ⟨hm, hf, hr⟩, hl]
  cases e <;> rfl

/-- A step of the assembler that ends in its finish (R43, R120). -/
theorem finishCapture_leaves (s : State) (n : LaneId) (k : Lane) (hm : k.regs.lmode = .capture) :
    captureLeaves n k s (s.putLane n k.finishCapture).raiseRequest := by
  obtain ⟨⟨hshared, hothers, hbus, hmeters, _⟩, _⟩ := putLane_lanePosts s n k.finishCapture
  refine ⟨hshared, hothers, hbus, hmeters, fun h => ?_, fun e hl hf hr => ?_⟩
  · simp [finishCapture_of_work k h]
  · simp [finishCapture_stopping k e hm hl hf hr]

/-! ## TRANSITION -/

/-- The lane once its pin has changed and the change pending has been absorbed (R11). -/
def absorbed (l : Lane) : Lane :=
  { l with
    line := l.fe.sampled.flip
    fe := { l.fe with sampled := l.fe.sampled.flip, change := none } }

/-- A lane that does not sample has its line changed alone (R8, log 3). -/
theorem seeTransition_unsampled (l : Lane) (table : Eight Profile) (now : Stamp)
    (hs : l.regs.lmode.samples = false) :
    l.seeTransition table now = { l with line := l.line.flip }.quiet := by
  simp [Lane.seeTransition, hs]

/-- With no change pending a transition begins one (R9). -/
theorem seeTransition_begins (l : Lane) (table : Eight Profile) (now : Stamp)
    (hs : l.regs.lmode.samples = true) (hc : l.fe.change = none) :
    l.seeTransition table now = { l with
      line := l.fe.sampled.flip
      fe := { l.fe with
        sampled := l.fe.sampled.flip
        change := some ⟨EdgeStamp.at l.regs.div now, l.fe.sampled.flip⟩ } }.quiet := by
  simp [Lane.seeTransition, hs, hc]

/-- With one pending it absorbs it, and a capture lane at work learns of the glitch (R11, R29). -/
theorem seeTransition_absorbs (l : Lane) (table : Eight Profile) (now : Stamp)
    (hs : l.regs.lmode.samples = true) (hc : l.fe.change ≠ none) :
    l.seeTransition table now
      = if l.runs .capture then (absorbed l).captureGlitch table else (absorbed l).quiet := by
  obtain ⟨c, hc⟩ := Option.ne_none_iff_exists'.mp hc
  simp only [Lane.seeTransition, hs, hc, if_true]
  rfl

theorem samples_of_mode {m : LMode} (h : m = .capture ∨ m = .meter) : m.samples = true := by
  obtain rfl | rfl := h <;> rfl

theorem not_samples_of_mode {m : LMode} (h : m = .none ∨ m = .replay) : m.samples = false := by
  obtain rfl | rfl := h <;> rfl

theorem seeTransition_glitch (l : Lane) (table : Eight Profile) (now : Stamp) (hr : l.runs .capture)
    (hc : l.fe.change ≠ none) :
    l.seeTransition table now = (absorbed l).captureGlitch table := by
  rw [seeTransition_absorbs l table now (samples_of_mode (.inl hr.1)) hc, if_pos hr]

/-- The pin and the front end of a lane that samples, after a transition (R8, R9, R11). -/
theorem seeTransition_front (l : Lane) (table : Eight Profile) (now : Stamp)
    (hs : l.regs.lmode.samples = true) :
    (l.seeTransition table now).lane.line = l.fe.sampled.flip
    ∧ (l.seeTransition table now).lane.fe = { l.fe with
        sampled := l.fe.sampled.flip
        change := if l.fe.change = none then
          some ⟨EdgeStamp.at l.regs.div now, l.fe.sampled.flip⟩ else none } := by
  by_cases hc : l.fe.change = none
  · rw [seeTransition_begins l table now hs hc, if_pos hc]
    exact ⟨rfl, rfl⟩
  · rw [seeTransition_absorbs l table now hs hc, if_neg hc]
    split
    · have glitch := (absorbed l).captureGlitch_step table
      exact ⟨glitch.line, glitch.fe⟩
    · exact ⟨rfl, rfl⟩

theorem exec_transition (s : State) (n : LaneId) :
    exec (.transition n) s
      = .next (s.putLane n ((s.lane n).seeTransition s.table s.time.count)).raiseRequest := rfl

theorem min_255_succ (g : Nat) : min 255 (g + 1) = if g + 1 ≤ 255 then g + 1 else 255 := by
  split <;> omega

/-- A glitch with no decision waiting is counted in the open frame, or discarded where none is open (R20,
R21, R29). -/
theorem captureGlitch_unwaited (l : Lane) (table : Eight Profile) (hw : l.cap.waiting = false) :
    (∃ f, l.cap.cstate = .inFrame ∧ l.cap.frame = some f
        ∧ l.captureGlitch table = { l with cap := { l.cap with frame := some f.glitched } }.quiet)
    ∨ ((l.cap.cstate ≠ .inFrame ∨ l.cap.frame = none) ∧ l.captureGlitch table = l.quiet) := by
  have settled : { l.cap with waiting := false } = l.cap := by rw [← hw]
  obtain ⟨_, _, _, h, _⟩ | ⟨f, hc, hf, _, h⟩ | ⟨_, h, _⟩ | ⟨hn, _, h⟩ := l.captureGlitch_cases table
  · rw [hw] at h; cases h
  · exact .inl ⟨f, hc, hf, by rw [h, ← hw]⟩
  · rw [hw] at h; cases h
  · exact .inr ⟨hn, by rw [h, settled]⟩

/-- Settles O21: the transition's equations, and the glitch with no decision waiting. -/
theorem transitionBeginsOrAbsorbs : Obligations.TransitionBeginsOrAbsorbs := by
  constructor
  · intro s n
    refine ⟨_, exec_transition s n, shared_raise (putLane_shared _ _ _),
      others_raise (putLane_others _ _ _), by simp, fun hm => ?_, fun hm => ?_⟩
    · rw [seeTransition_unsampled _ _ _ (not_samples_of_mode hm)]
      simp
    · have hs := samples_of_mode hm
      have front := seeTransition_front (s.lane n) s.table s.time.count hs
      simp only [State.raiseRequest_lane, State.putLane_lane_self, State.raiseRequest_queue,
        State.putLane_queue, front]
      refine ⟨trivial, trivial, trivial, trivial, fun hc => ?_, fun hc => ?_, fun hc hr => ?_⟩
      · rw [seeTransition_begins _ _ _ hs hc]
        simp [hc, EdgeStamp.at, laneTick]
      · simp [hc]
      · rw [seeTransition_absorbs _ _ _ hs hc, if_neg hr]
        simp [hc, absorbed]
  · intro s n hr hw hc
    obtain ⟨f, hin, hf, h⟩ | ⟨hout, h⟩ := captureGlitch_unwaited (absorbed (s.lane n)) s.table hw
    all_goals
      rw [exec_transition, seeTransition_glitch _ _ _ hr hc, h]
      refine ⟨_, rfl, by simp, fun g hin' hg => ?_, fun hout' => ?_⟩
    · cases Option.some.inj (hg.symm.trans hf)
      simp [absorbed, Frame.glitched, min_255_succ]
    · exact hout'.elim (fun k => absurd hin k) fun k => nomatch hf.symm.trans k
    · exact hout.elim (fun k => absurd hin' k) fun k => nomatch hg.symm.trans k
    · simp [absorbed]

/-! ## EDGE_ACCEPTED -/

/-- EDGE_ACCEPTED on a pending change that has lasted its time, with ENABLE 1 (R10). -/
theorem exec_edgeAccepted (s : State) (n : LaneId) (c : Change) (hc : (s.lane n).fe.change = some c)
    (on : s.ctl.enable = true) (due : (s.lane n).confirmed s.time.count c) :
    exec (.edgeAccepted n) s = .next (s.acceptEdge n c).raiseRequest := by
  have hdue : s.edgeDue n = true := by simp only [State.edgeDue, hc, on, decide_eq_true due]; rfl
  simp only [exec, execEdgeAccepted, hc, hdue, if_true]

/-- With no change, before its time, or with ENABLE 0 the report changes nothing (log 1). -/
theorem exec_edgeAccepted_early (s : State) (n : LaneId) (h : s.edgeDue n = false) :
    exec (.edgeAccepted n) s = .next s := by
  simp only [exec, execEdgeAccepted, h]
  split <;> rfl

@[simp] theorem acceptChange_regs (l : Lane) (c : Change) : (l.acceptChange c).regs = l.regs := rfl
@[simp] theorem acceptChange_life (l : Lane) (c : Change) : (l.acceptChange c).life = l.life := rfl

theorem acceptEdge_inactive (s : State) (n : LaneId) (c : Change)
    (h : (s.lane n).life.active = false) :
    s.acceptEdge n c = s.setLane n ((s.lane n).acceptChange c) := by
  simp only [State.acceptEdge, acceptChange_life, h, Bool.false_eq_true, if_false]

theorem acceptEdge_capture (s : State) (n : LaneId) (c : Change) (h : (s.lane n).runs .capture) :
    s.acceptEdge n c = s.putLane n (((s.lane n).acceptChange c).captureEdge s.table s.time.count
      (decide (c.level ≠ (s.lane n).regs.idle)) c.stamp) := by
  obtain ⟨hm, ha⟩ := h
  simp only [State.acceptEdge, acceptChange_life, acceptChange_regs, ha, hm, if_true]
  rfl

theorem acceptEdge_meter (s : State) (n : LaneId) (c : Change) (u : UnitId)
    (hu : s.meters.heldBy n = some u) (h : (s.lane n).runs .meter) :
    s.acceptEdge n c = s.putMeter n u (((s.lane n).acceptChange c).meterEdge (s.meters.get u) u
      s.time.count (decide (c.level ≠ (s.lane n).regs.idle)) c.stamp) := by
  obtain ⟨hm, ha⟩ := h
  simp only [State.acceptEdge, acceptChange_life, acceptChange_regs, ha, hm, hu, if_true]
  rfl

theorem acceptEdge_other (s : State) (n : LaneId) (c : Change) (hc : ¬ (s.lane n).runs .capture)
    (hm : ¬ (s.lane n).runs .meter) :
    s.acceptEdge n c = s.setLane n ((s.lane n).acceptChange c) := by
  cases ha : (s.lane n).life.active with
  | false => exact acceptEdge_inactive s n c ha
  | true =>
    have hcap : (s.lane n).regs.lmode ≠ .capture := fun k => hc ⟨k, ha⟩
    have hmet : (s.lane n).regs.lmode ≠ .meter := fun k => hm ⟨k, ha⟩
    simp only [State.acceptEdge, acceptChange_life, acceptChange_regs, ha, if_true]

/-- Whatever engine takes the edge, the front end is left as the acceptance leaves it (R10). -/
theorem acceptEdge_front (s : State) (n : LaneId) (c : Change) :
    ((s.acceptEdge n c).lane n).fe = ((s.lane n).acceptChange c).fe := by
  unfold State.acceptEdge
  dsimp only
  split
  · split
    · rw [State.putLane_lane_self]
      exact (Lane.captureEdge_step _ _ _ _ _).fe
    · split
      · rw [State.putMeter_lane_self]
        exact (Lane.meterEdge_step _ _ _ _ _ _).fe
      · rw [State.lane_setLane_self]
    · rw [State.lane_setLane_self]
  · rw [State.lane_setLane_self]

/-- Settles O22: before its moment the report changes nothing; at it the front end takes the change, whatever
engine is at work. -/
theorem edgeAcceptedAfterMinimumWidth : Obligations.EdgeAcceptedAfterMinimumWidth := by
  intro s n
  refine ⟨fun c hc on due => ⟨_, exec_edgeAccepted s n c hc on due, ?_,
      shared_raise (acceptEdge_shared _ _ _), others_raise (acceptEdge_others _ _ _), fun hl => ?_⟩,
    fun h => exec_edgeAccepted_early s n ?_, fun c hc early => exec_edgeAccepted_early s n ?_⟩
  · rw [State.raiseRequest_lane, acceptEdge_front]
    rfl
  · rw [acceptEdge_inactive s n c hl]
    simp [Lane.acceptChange]
  · unfold State.edgeDue
    obtain h | h := h
    · rw [h]
    · cases (s.lane n).fe.change <;> simp [h]
  · have late : ¬ (s.lane n).confirmed s.time.count c := Nat.not_le.mpr early
    simp only [State.edgeDue, hc, decide_eq_false late, Bool.and_false]

/-! ## The edge at the assembler -/

/-- The lane with no decision waiting. -/
def unwaited (l : Lane) : Lane := { l with cap := { l.cap with waiting := false } }

/-- An active-going edge in LISTEN begins a frame on a RUNNING lane (R21). -/
theorem captureEdge_begins (l : Lane) (table : Eight Profile) (now : Stamp) (active : Bool)
    (e : EdgeStamp) (hc : l.cap.cstate = .listen) (hl : l.life = .running) (ha : active = true) :
    l.captureEdge table now active e
      = ⟨((unwaited l).beginFrame table e).lane.judgeMarkStart table now,
          ((unwaited l).beginFrame table e).posts⟩ := by
  simp only [Lane.captureEdge, hc]
  rw [if_pos ⟨ha, hl⟩]
  simp only [LaneOut.next, Lane.quiet_lane, Lane.quiet_posts, List.append_nil]
  rfl

/-- The longest mark, judged on a mark that has just begun (R33). -/
def judgeMark (l : Lane) (table : Eight Profile) (now : Stamp) : Lane :=
  match l.cap.frame with
  | some g => if l.markReached now g then l.closeStuck table g else l
  | none => l

/-- An edge in IN_FRAME ends the interval (R27), and the work may finish with the frame (R43). -/
theorem captureEdge_inFrame (l : Lane) (table : Eight Profile) (now : Stamp) (active : Bool)
    (e : EdgeStamp) (f : Frame) (hc : l.cap.cstate = .inFrame) (hf : l.cap.frame = some f) :
    l.captureEdge table now active e
      = (judgeMark ((unwaited l).endInterval table active e f) table now).finishCapture := by
  unfold Lane.captureEdge
  dsimp only
  split
  · next hl => rw [hc] at hl; cases hl
  · next g _ hg =>
    cases Option.some.inj (hg.symm.trans hf)
    rfl
  · next hn => exact (hn f hc hf).elim

/-- Any other edge only ends a waiting decision (R20). -/
theorem captureEdge_other (l : Lane) (table : Eight Profile) (now : Stamp) (active : Bool)
    (e : EdgeStamp) (hb : ¬ (l.cap.cstate = .listen ∧ l.life = .running ∧ active = true))
    (hc : l.cap.cstate ≠ .inFrame) : l.captureEdge table now active e = (unwaited l).quiet := by
  unfold Lane.captureEdge
  dsimp only
  split
  · next hl => exact if_neg fun ⟨ha, hrun⟩ => hb ⟨hl, hrun, ha⟩
  · next hin _ => exact absurd hin hc
  · rfl

/-- The mark point, by the registers the lane has (R33). -/
theorem markReached_iff (l : Lane) (r : LaneRegs) (now : Stamp) (f : Frame) (h : l.regs = r) :
    l.markReached now f ↔ f.inMark = true
      ∧ r.maxmark.toNat ≤ tickDiff r.div (now >>> r.div.toNat) f.intervalStart := by
  subst h
  exact Iff.rfl

/-- The time limit, by the registers the lane has (R34). -/
theorem tlimitReached_iff (l : Lane) (r : LaneRegs) (now : Stamp) (f : Frame) (h : l.regs = r) :
    l.tlimitReached now f ↔ r.tlimit ≠ 0 ∧ r.tlimit.toNat * 1024 ≤ (now - f.start).toNat := by
  subst h
  exact Iff.rfl

theorem judgeMark_none (l : Lane) (table : Eight Profile) (now : Stamp) (h : l.cap.frame = none) :
    judgeMark l table now = l := by
  simp only [judgeMark, h]

theorem judgeMark_some (l : Lane) (r : LaneRegs) (table : Eight Profile) (now : Stamp) (g : Frame)
    (h : l.cap.frame = some g) (hr : l.regs = r) :
    judgeMark l table now = if g.inMark = true
        ∧ r.maxmark.toNat ≤ tickDiff r.div (now >>> r.div.toNat) g.intervalStart
      then l.closeStuck table g else l := by
  simp only [judgeMark, h]
  exact if_congr (markReached_iff l r now g hr) rfl rfl

theorem judgeMarkStart_some (l : Lane) (r : LaneRegs) (table : Eight Profile) (now : Stamp)
    (f : Frame) (h : l.cap.frame = some f) (hr : l.regs = r) :
    l.judgeMarkStart table now
      = if r.tlimit ≠ 0 ∧ r.tlimit.toNat * 1024 ≤ (now - f.start).toNat
        then l.closeFrame table f .long
        else if f.inMark = true
          ∧ r.maxmark.toNat ≤ tickDiff r.div (now >>> r.div.toNat) f.intervalStart
        then l.closeStuck table f else l := by
  simp only [Lane.judgeMarkStart, h]
  exact if_congr (tlimitReached_iff l r now f hr) rfl
    (if_congr (markReached_iff l r now f hr) rfl rfl)

/-- Judging the longest mark keeps the registers. -/
theorem judgeMark_regs (l : Lane) (table : Eight Profile) (now : Stamp) :
    (judgeMark l table now).regs = l.regs := by
  unfold judgeMark
  split
  · split
    · exact (l.closeStuck_step _ _).regs
    · rfl
  · rfl

/-- The longest mark judged, and the assembler's finish (R33, R43). -/
theorem judgeMark_leaves (s : State) (n : LaneId) (k : Lane) (r : LaneRegs) (hr : k.regs = r)
    (hm : r.lmode = .capture) :
    (k.cap.frame = none → captureLeaves n k s
      (s.putLane n (judgeMark k s.table s.time.count).finishCapture).raiseRequest)
    ∧ ∀ g, k.cap.frame = some g → captureLeaves n
        (if g.inMark = true
          ∧ r.maxmark.toNat ≤ tickDiff r.div (s.time.count >>> r.div.toNat) g.intervalStart
        then k.closeStuck s.table g else k) s
        (s.putLane n (judgeMark k s.table s.time.count).finishCapture).raiseRequest := by
  have leaves := finishCapture_leaves s n (judgeMark k s.table s.time.count)
    (by rw [judgeMark_regs, hr, hm])
  refine ⟨fun hnone => ?_, fun g hg => ?_⟩
  · rwa [judgeMark_none k _ _ hnone] at leaves ⊢
  · rwa [judgeMark_some k r _ _ g hg hr] at leaves ⊢

/-- Settles O23: the acceptance delivers the edge to the engine at work, and the assembler's answer is read
off its sub-state. -/
theorem edgeReachesEngine : Obligations.EdgeReachesEngine := by
  intro s n c
  dsimp only
  intro hc on due
  refine ⟨_, exec_edgeAccepted s n c hc on due, fun hr hb => ?_, fun f hf hr hin => ?_,
    fun hr hb hin => ?_, fun u hu hr => ?_, fun hcap hmet => ?_⟩
  · obtain ⟨hl, hrun, ha⟩ := hb
    rw [acceptEdge_capture s n c hr,
      captureEdge_begins ((s.lane n).acceptChange c) _ _ _ _ hl hrun ha]
    have begun := (unwaited ((s.lane n).acceptChange c)).beginFrame_step s.table c.stamp
    obtain ⟨posts, lane⟩ := putLane_lanePosts s n
      ⟨((unwaited ((s.lane n).acceptChange c)).beginFrame s.table c.stamp).lane.judgeMarkStart
        s.table s.time.count,
        ((unwaited ((s.lane n).acceptChange c)).beginFrame s.table c.stamp).posts⟩
    exact ⟨posts, fun f hf => lane.trans (judgeMarkStart_some _ _ _ _ f hf begun.regs)⟩
  · have ended := (unwaited ((s.lane n).acceptChange c)).endInterval_step s.table
      (decide (c.level ≠ (s.lane n).regs.idle)) c.stamp f
    rw [acceptEdge_capture s n c hr,
      captureEdge_inFrame ((s.lane n).acceptChange c) _ _ _ _ f hin hf]
    exact judgeMark_leaves s n _ _ ended.regs hr.1
  · rw [acceptEdge_capture s n c hr,
      captureEdge_other ((s.lane n).acceptChange c) _ _ _ _ hb hin]
    exact setLane_laneOnly s n _
  · rw [acceptEdge_meter s n c u hu hr]
    exact putMeter_meterLeaves s n u _
  · rw [acceptEdge_other s n c hcap hmet]
    exact setLane_laneOnly s n _

/-! ## The decision that waits -/

/-- An absorbed change ends an idle wait that waits for it (R15, R20). -/
theorem captureGlitch_idle (l : Lane) (table : Eight Profile)
    (hc : l.cap.cstate = .arming ∨ l.cap.cstate = .holdoff) (hw : l.cap.waiting = true) :
    l.captureGlitch table
      = { l with cap := { l.cap with waiting := false, cstate := .listen } }.quiet := by
  obtain ⟨_, hin, _⟩ | ⟨_, hin, _⟩ | ⟨_, _, h⟩ | ⟨_, hn, _⟩ := l.captureGlitch_cases table
  · obtain hc | hc := hc <;> rw [hin] at hc <;> cases hc
  · obtain hc | hc := hc <;> rw [hin] at hc <;> cases hc
  · exact h
  · exact absurd (hn hc) (by simp [hw])

/-- It closes the frame whose limit waits for it, the glitch counted (R15, R29, R32, R33). -/
theorem captureGlitch_frame (l : Lane) (table : Eight Profile) (f : Frame)
    (hc : l.cap.cstate = .inFrame) (hf : l.cap.frame = some f) (hw : l.cap.waiting = true) :
    l.captureGlitch table = (Lane.limitClose { l with cap := { l.cap with
      waiting := false, frame := some f.glitched } } table f.glitched).finishCapture := by
  simp only [Lane.captureGlitch, hc, hf, hw, if_true]
  rfl

/-- The interval of a frame that is not kept only counts (R27). -/
theorem endInterval_unkept (l : Lane) (table : Eight Profile) (active : Bool) (e : EdgeStamp)
    (f : Frame) (hd : f.disp ≠ .kept) (ht : f.total + 1 ≠ l.regs.maxiv.toNat) :
    l.endInterval table active e f = { l with cap := { l.cap with frame := some { f with
      intervalStart := e.tick, inMark := active, total := f.total + 1 } } } := by
  unfold Lane.endInterval
  dsimp only
  rw [if_neg hd]
  exact if_neg ht

/-- A frame whose mark point has not come is left open (R33). -/
theorem judgeMark_unreached (k : Lane) (table : Eight Profile) (now : Stamp) (g : Frame)
    (hg : k.cap.frame = some g) (hm : ¬ k.markReached now g) : judgeMark k table now = k := by
  simp only [judgeMark, hg, if_neg hm]

/-- Settles O24: an absorbed change takes the decision that waits, and an accepted one drops it. -/
theorem waitingDecisionSettles : Obligations.WaitingDecisionSettles := by
  intro s n c
  dsimp only
  intro hc hr hw
  have pending : (s.lane n).fe.change ≠ none := by simp [hc]
  refine ⟨⟨_, exec_transition s n, fun hidle => ?_, fun f hf hin => ?_⟩, fun on due =>
    ⟨_, exec_edgeAccepted s n c hc on due, fun hidle => ?_, fun f hf hin hd ht hm => ?_⟩⟩
  · rw [seeTransition_glitch _ _ _ hr pending, captureGlitch_idle (absorbed (s.lane n)) _ hidle hw]
    exact setLane_laneOnly s n _
  · rw [seeTransition_glitch _ _ _ hr pending,
      captureGlitch_frame (absorbed (s.lane n)) _ f hin hf hw, ← min_255_succ]
    exact finishCapture_leaves s n _
      ((congrArg LaneRegs.lmode (Lane.limitClose_step _ s.table f.glitched).regs).trans hr.1)
  · have hin : (s.lane n).cap.cstate ≠ .inFrame := by
      obtain h | h := hidle <;> rw [h] <;> decide
    have hb : (s.lane n).cap.cstate ≠ .listen := by
      obtain h | h := hidle <;> rw [h] <;> decide
    rw [acceptEdge_capture s n c hr,
      captureEdge_other ((s.lane n).acceptChange c) _ _ _ _ (fun h => hb h.1) hin]
    exact setLane_laneOnly s n _
  · rw [acceptEdge_capture s n c hr,
      captureEdge_inFrame ((s.lane n).acceptChange c) _ _ _ _ f hin hf,
      endInterval_unkept (unwaited ((s.lane n).acceptChange c)) _ _ _ f hd ht,
      judgeMark_unreached _ _ _ _ rfl,
      finishCapture_of_work _ (.inr (.inl (by simp)))]
    · exact setLane_laneOnly s n _
    · exact fun ⟨ha, h⟩ => absurd h (Nat.not_le.mpr (hm ha))

/-! ## The limit points -/

/-- With a change pending the decision on a limit point waits, and with none the frame closes (R15). -/
theorem reachFramePoint_leaves (s : State) (n : LaneId) (f : Frame)
    (hm : (s.lane n).regs.lmode = .capture) :
    ((s.lane n).fe.change = none → captureLeaves n ((s.lane n).limitClose s.table f) s
      (s.putLane n ((s.lane n).reachFramePoint s.table f)).raiseRequest)
    ∧ ((s.lane n).fe.change ≠ none →
        laneOnly n s (s.putLane n ((s.lane n).reachFramePoint s.table f)).raiseRequest
        ∧ (s.putLane n ((s.lane n).reachFramePoint s.table f)).raiseRequest.lane n
          = { s.lane n with cap := { (s.lane n).cap with waiting := true } }) := by
  rw [Lane.reachFramePoint_eq]
  refine ⟨fun hc => ?_, fun hc => ?_⟩
  · rw [if_neg (by simp [hc])]
    exact finishCapture_leaves s n _
      ((congrArg LaneRegs.lmode ((s.lane n).limitClose_step s.table f).regs).trans hm)
  · rw [if_pos (Option.isSome_iff_ne_none.mpr hc)]
    exact setLane_laneOnly s n _

theorem reachWaitPoint_eq (l : Lane) :
    l.reachWaitPoint = { l with cap := { l.cap with
      cstate := if l.fe.change = none then .listen else l.cap.cstate
      waiting := l.fe.change.isSome } } := by
  unfold Lane.reachWaitPoint
  cases l.fe.change <;> rfl

theorem limitClose_space (l : Lane) (table : Eight Profile) (f : Frame) (h : f.inMark = false) :
    l.limitClose table f = l.closeFrame table f .gap := by
  simp [Lane.limitClose, h]

theorem limitClose_mark (l : Lane) (table : Eight Profile) (f : Frame) (h : f.inMark = true) :
    l.limitClose table f = l.closeStuck table f := by
  simp [Lane.limitClose, h]

/-- WAIT_POINT_REACHED, when it is due and when it is not (R20). -/
theorem exec_waitPointReached (s : State) (n : LaneId) :
    exec (.waitPointReached n) s = if (s.lane n).waitDue s.time.count then
      .next (s.setLane n (s.lane n).reachWaitPoint) else .next s := rfl

/-- The three reports on an open frame, when they are due and when they are not (R32 to R34). -/
theorem exec_gapPointReached (s : State) (n : LaneId) (f : Frame)
    (h : (s.lane n).openFrame = some f) :
    exec (.gapPointReached n) s = if (s.lane n).gapDue s.time.count f then
      .next (s.putLane n ((s.lane n).reachFramePoint s.table f)).raiseRequest else .next s := by
  simp only [exec, execGapPointReached, h]

theorem exec_markPointReached (s : State) (n : LaneId) (f : Frame)
    (h : (s.lane n).openFrame = some f) :
    exec (.markPointReached n) s = if (s.lane n).markDue s.time.count f then
      .next (s.putLane n ((s.lane n).reachFramePoint s.table f)).raiseRequest else .next s := by
  simp only [exec, execMarkPointReached, h]

theorem exec_tlimitExpiry (s : State) (n : LaneId) (f : Frame)
    (h : (s.lane n).openFrame = some f) :
    exec (.tlimitExpiry n) s = if (s.lane n).tlimitReached s.time.count f then
      .next (s.putLane n ((s.lane n).closeFrame s.table f .long).finishCapture).raiseRequest
      else .next s := by
  simp only [exec, execTlimitExpiry, h]

/-- Settles O27: each report is judged by its own condition, and the frame's limits by the pending change. -/
theorem waitPointAndLimitCloses : Obligations.WaitPointAndLimitCloses := by
  constructor
  · intro s n
    dsimp only
    rw [exec_waitPointReached]
    refine ⟨fun hr hc hw hreach => ?_, fun h => if_neg fun due => ?_⟩
    · rw [← reachWaitPoint_eq]
      exact if_pos (decide_eq_true ⟨hr, hc, hw, hreach⟩)
    · obtain ⟨hr, hc, hw, hreach⟩ := of_decide_eq_true due
      obtain h | h | h | ⟨harm, hhold⟩ := h
      · exact h hreach
      · rw [hw] at h; cases h
      · exact h hr
      · exact hc.elim harm hhold
  · intro s n f
    dsimp only
    intro hf hr hc
    have hopen := (openFrame_eq_some (s.lane n) f).mpr ⟨hr, hc, hf⟩
    obtain ⟨closes, waits⟩ := reachFramePoint_leaves s n f hr.1
    rw [exec_gapPointReached s n f hopen, exec_markPointReached s n f hopen,
      exec_tlimitExpiry s n f hopen]
    refine ⟨fun gap => ⟨_, if_pos (decide_eq_true gap), ?_, waits⟩,
      fun mark => ⟨_, if_pos (decide_eq_true mark), ?_, waits⟩, fun long => ⟨_, if_pos long, ?_⟩,
      fun gap => if_neg fun due => gap (of_decide_eq_true due),
      fun mark => if_neg fun due => mark (of_decide_eq_true due), fun long => if_neg long⟩
    · rwa [limitClose_space _ _ _ gap.2.1] at closes
    · rwa [limitClose_mark _ _ _ mark.2.1] at closes
    · exact finishCapture_leaves s n _
        ((congrArg LaneRegs.lmode ((s.lane n).closeFrame_step s.table f .long).regs).trans hr.1)

end Sys2Proof.Laws
end

section
/-! SUPPORT. What a write to LCFG stores, and how it reads back (O25). -/

namespace Sys2Proof.Laws

open Sys2Proof.Machine Sys2Proof.Safety

/-! ## The fields of LCFG as they read back (R182) -/

theorem lmode_code_ofCode (c : BitVec 2) : (LMode.ofCode c).code = c.toNat := by
  revert c; decide

theorem level_code_ofBit (b : Bool) : (Level.ofBit b).code = b.toNat := by
  cases b <;> rfl

theorem driveStyle_code (b : Bool) :
    DriveStyle.code (if b then .drive else .release) = b.toNat := by
  cases b <;> rfl

/-- Bit `i` of a register is bit `i - lo` of the field that covers it (R174, R182). -/
theorem getLsbD_packFields (lo width v : Nat) (rest : List BitField) (i : Nat) (hi : i < 16) :
    (packFields ((lo, width, v) :: rest)).getLsbD i
      = ((decide (lo ≤ i ∧ i < lo + width) && v.testBit (i - lo))
        || (packFields rest).getLsbD i) := by
  simp only [packFields, BitVec.getLsbD_or, BitVec.getLsbD_shiftLeft, BitVec.getLsbD_ofNat,
    Nat.testBit_mod_two_pow, hi, decide_true, Bool.true_and]
  by_cases hlo : lo ≤ i
  · have hin : i - lo < 16 := by omega
    have hw : i - lo < width ↔ i < lo + width := by omega
    simp [hlo, hin, hw, Nat.not_lt.mpr hlo]
  · simp [hlo, Nat.lt_of_not_le hlo]

theorem getLsbD_packFields_nil (i : Nat) : (packFields []).getLsbD i = false := by
  simp [packFields]

/-- The fields of LCFG read back as they were written, and its unnamed bit 7 reads 0 (R7, R182). -/
theorem lcfg_withLcfg (r : LaneRegs) (w : Word) : (r.withLcfg w).lcfg = w &&& 0xFF7F := by
  refine BitVec.eq_of_getLsbD_eq fun i hi => ?_
  simp only [LaneRegs.lcfg, LaneRegs.withLcfg, lmode_code_ofCode, level_code_ofBit, driveStyle_code,
    getLsbD_packFields _ _ _ _ i hi, getLsbD_packFields_nil, BitVec.testBit_toNat,
    Nat.testBit_bool_toNat]
  interval_cases i <;> simp

/-- Settles O25: the lock decides, and a taken write reads back field by field. -/
theorem lcfgWriteResynchronises : Obligations.LcfgWriteResynchronises := by
  intro s n w hp
  dsimp only
  have write : exec (.lcfgWrite n w) s = .next (s.writeLcfg n w) := by
    simp only [exec, execLcfgWrite, State.hostWrite_taken s _ hp]
  rw [write]
  refine ⟨fun hl => ?_, fun hl => ?_⟩
  · have taken : s.writeLcfg n w = s.setLane n { s.lane n with
        regs := (s.lane n).regs.withLcfg w
        fe := .resync (s.lane n).line ((s.lane n).regs.withLcfg w).div s.time.count } := if_pos hl
    rw [taken]
    refine ⟨_, rfl, ?_, ?_, ?_, ?_, ?_, fun q hq => ?_⟩
    · simp only [State.readLaneReg, State.lane_setLane_self, lcfg_withLcfg]
    · simp only [State.lane_setLane_self]; rfl
    · simp only [State.lane_setLane_self]; rfl
    · simp only [State.lane_setLane_self]; rfl
    · simp only [State.lane_setLane_self]
    · simp only [plainLaneRegs, List.mem_cons, List.not_mem_nil, or_false] at hq
      rcases hq with rfl | rfl | rfl | rfl | rfl | rfl | rfl | rfl | rfl | rfl <;>
        simp only [State.readLaneReg, State.lane_setLane_self] <;> rfl
  · rw [show s.writeLcfg n w = s.setLane n { s.lane n with writeIgnored := true } from if_neg hl]

end Sys2Proof.Laws
end

section
/-! SUPPORT. The commit checks, what a change of a profile does to a lane, and the obligations that rest on
it: COMMIT and CLEAR (O18) and LOAD (O19). -/

namespace Sys2Proof.Laws

open Sys2Proof.Machine Sys2Proof.Safety

/-! ## The commit checks (R46, R49) -/

/-- The model's list of used triples holds those that R46 names. -/
theorem mem_usedTriples (p : ProfileFields) (t : Triple) : t ∈ p.usedTriples ↔ usedTriple p t := by
  unfold ProfileFields.usedTriples
  cases hl : p.hasLead <;> cases hr : p.hasRepeat <;> simp [usedTriple, hl, hr, or_assoc]

/-- Check 1 of R49 over every used triple. -/
abbrev rangesOk (p : ProfileFields) : Prop := ∀ t ∈ p.usedTriples, t.rangeOk

/-- Check 2 of R49 over every used triple. -/
abbrev nominalsOk (p : ProfileFields) : Prop := ∀ t ∈ p.usedTriples, t.nominalOk

theorem rangesOk_iff (p : ProfileFields) :
    rangesOk p ↔ ∀ t, usedTriple p t → 1 ≤ t.min ∧ t.min ≤ t.max :=
  forall_congr' fun t => imp_congr_left (mem_usedTriples p t)

theorem nominalsOk_iff (p : ProfileFields) :
    nominalsOk p ↔ ∀ t, usedTriple p t → t.min ≤ t.nom ∧ t.nom ≤ t.max :=
  forall_congr' fun t => imp_congr_left (mem_usedTriples p t)

/-- The checks in their order: each result says which check was the first to fail (R49). -/
theorem commitResult_cases (p : ProfileFields) :
    (p.commitResult = .badRange ∧ ¬ rangesOk p)
    ∨ (p.commitResult = .badNominal ∧ rangesOk p ∧ ¬ nominalsOk p)
    ∨ (p.commitResult = .badBits ∧ rangesOk p ∧ nominalsOk p ∧ ¬ p.bitsOk)
    ∨ (p.commitResult = .repeatNeedsLead ∧ rangesOk p ∧ nominalsOk p ∧ p.bitsOk ∧ ¬ p.leadOk)
    ∨ (p.commitResult = .ambiguous ∧ rangesOk p ∧ nominalsOk p ∧ p.bitsOk ∧ p.leadOk
        ∧ ¬ p.unambiguous)
    ∨ (p.commitResult = .ok ∧ rangesOk p ∧ nominalsOk p ∧ p.bitsOk ∧ p.leadOk ∧ p.unambiguous) := by
  unfold ProfileFields.commitResult
  by_cases range : rangesOk p
  · rw [if_neg (not_not.mpr range)]
    by_cases nominal : nominalsOk p
    · rw [if_neg (not_not.mpr nominal)]
      by_cases bits : p.bitsOk
      · rw [if_neg (not_not.mpr bits)]
        by_cases lead : p.leadOk
        · rw [if_neg (not_not.mpr lead)]
          by_cases apart : p.unambiguous
          · rw [if_neg (not_not.mpr apart)]
            exact .inr (.inr (.inr (.inr (.inr ⟨rfl, range, nominal, bits, lead, apart⟩))))
          · rw [if_pos apart]
            exact .inr (.inr (.inr (.inr (.inl ⟨rfl, range, nominal, bits, lead, apart⟩))))
        · rw [if_pos lead]
          exact .inr (.inr (.inr (.inl ⟨rfl, range, nominal, bits, lead⟩)))
      · rw [if_pos bits]
        exact .inr (.inr (.inl ⟨rfl, range, nominal, bits⟩))
    · rw [if_pos nominal]
      exact .inr (.inl ⟨rfl, range, nominal⟩)
  · rw [if_pos range]
    exact .inl ⟨rfl, range⟩

/-- A result that names the first check to fail is told by which checks hold. -/
theorem iff_of_firstFailure {r : PResult} {range nominal bits lead apart : Prop}
    (h : (r = .badRange ∧ ¬ range)
      ∨ (r = .badNominal ∧ range ∧ ¬ nominal)
      ∨ (r = .badBits ∧ range ∧ nominal ∧ ¬ bits)
      ∨ (r = .repeatNeedsLead ∧ range ∧ nominal ∧ bits ∧ ¬ lead)
      ∨ (r = .ambiguous ∧ range ∧ nominal ∧ bits ∧ lead ∧ ¬ apart)
      ∨ (r = .ok ∧ range ∧ nominal ∧ bits ∧ lead ∧ apart)) :
    (r = .badRange ↔ ¬ range)
    ∧ (r = .badNominal ↔ range ∧ ¬ nominal)
    ∧ (r = .badBits ↔ range ∧ nominal ∧ ¬ bits)
    ∧ (r = .repeatNeedsLead ↔ range ∧ nominal ∧ bits ∧ ¬ lead)
    ∧ (r = .ambiguous ↔ range ∧ nominal ∧ bits ∧ lead ∧ ¬ apart)
    ∧ (r = .ok ↔ range ∧ nominal ∧ bits ∧ lead ∧ apart) := by
  obtain ⟨rfl, c⟩ | ⟨rfl, c⟩ | ⟨rfl, c⟩ | ⟨rfl, c⟩ | ⟨rfl, c⟩ | ⟨rfl, c⟩ := h <;> simp [c]

/-! ## PVALID (R45) -/

/-- Bit `i` of PVALID tells whether entry `i` is VALID. -/
theorem getLsbD_validMask (table : Eight Profile) (i : ProfileIx) :
    (validMask table).getLsbD i.val = (table.get i).valid := by
  have flag (b : Bool) (k : Nat) : (if b then (1 : Word) <<< k else 0).getLsbD i.val
      = (b && decide (i.val = k)) := by
    cases b
    · simp
    · simp only [if_true, BitVec.getLsbD_shiftLeft, Bool.true_and]
      have : i.val < 8 := i.isLt
      rcases Nat.lt_trichotomy i.val k with h | h | h
      · simp [h, h.ne]
      · simp [h]; omega
      · simp [h.ne', Nat.not_lt.mpr h.le]; omega
  simp only [validMask, Eight.numbers, List.foldr, BitVec.getLsbD_or, flag]
  fin_cases i <;> simp

/-! ## The work bound to a profile (R67, R68) -/

theorem killMatcher_get_self (l : Lane) (ix : ProfileIx) :
    ((l.killMatcher ix).matchers.get ix).state
      = if (l.matchers.get ix).state.live then .dead else (l.matchers.get ix).state := by
  unfold Lane.killMatcher
  split <;> simp [Matcher.kill]

theorem killMatcher_get_ne (l : Lane) {ix j : ProfileIx} (h : j ≠ ix) :
    (l.killMatcher ix).matchers.get j = l.matchers.get j := by
  unfold Lane.killMatcher
  split <;> simp [h]

/-- The end of a live matcher touches the matchers alone (R67). -/
theorem killMatcher_eq (l : Lane) (ix : ProfileIx) :
    l.killMatcher ix = { l with matchers := (l.killMatcher ix).matchers } := by
  unfold Lane.killMatcher
  split <;> rfl

/-- A changed profile touches a lane's replay engine and its FIFO alone (R68, R106). -/
theorem profileChanged_eq (l : Lane) (ix : ProfileIx) :
    l.profileChanged ix
      = { l with rep := (l.profileChanged ix).rep, fifo := (l.profileChanged ix).fifo } := by
  unfold Lane.profileChanged
  split
  · split
    · split
      · rfl
      · obtain ⟨_, h⟩ | ⟨c, _, h⟩ := l.endRecord_cases .profileChanged <;> rw [h]
    · rfl
  · rfl

theorem replayChanged_profileChanged (l : Lane) (ix : ProfileIx) :
    replayChanged ix l (l.profileChanged ix) := by
  unfold replayChanged Lane.profileChanged
  cases hc : l.rep.current with
  | none => simp
  | some c =>
    by_cases bound : c.kind = some .code ∧ c.profile = ix
    · by_cases plays : l.rep.rstate = .rPlay
      · simp [bound, plays]
      · simp [bound, plays, Lane.endRecord, hc]
    · simp [bound]

/-- What becomes of the replay record is told by the engine and the FIFO. -/
theorem replayChanged_of_eq {ix : ProfileIx} {l m k : Lane} (hr : m.rep = l.rep)
    (hf : m.fifo = l.fifo) (h : replayChanged ix m k) : replayChanged ix l k := by
  unfold replayChanged at *
  rwa [hr, hf] at h

/-- A change of profile `ix` stops the lane's matcher for it and its CODE record naming it. -/
theorem profileChangeOn_lane (l : Lane) (ix : ProfileIx) :
    profileChangeOn ix l ((l.killMatcher ix).profileChanged ix) := by
  have matchers : ((l.killMatcher ix).profileChanged ix).matchers = (l.killMatcher ix).matchers := by
    rw [profileChanged_eq]
  have killed (r : ReplayEngine) (f : List FifoEntry) :
      ({ l.killMatcher ix with rep := r, fifo := f } : Lane)
        = { l with matchers := (l.killMatcher ix).matchers, rep := r, fifo := f } := by
    rw [killMatcher_eq]
  refine ⟨by rw [matchers]; exact killMatcher_get_self l ix,
    fun j hj => by rw [matchers]; exact killMatcher_get_ne l hj,
    replayChanged_of_eq (by rw [killMatcher_eq]) (by rw [killMatcher_eq])
      (replayChanged_profileChanged (l.killMatcher ix) ix), ?_⟩
  rw [matchers]
  exact (profileChanged_eq _ ix).trans (killed _ _)

/-- The state after profile `ix` has changed to `p` (R50, R51). -/
def tableChanged (s : State) (ix : ProfileIx) (p : Profile) : State :=
  ({ s with presult := .ok, table := s.table.set ix p }.profileChanged ix).raiseRequest

/-- What a taken COMMIT or CLEAR leaves: entry `ix` is `p`, the work bound to it is stopped, and nothing else
changes. -/
theorem tableChanged_leaves (s : State) (ix : ProfileIx) (p : Profile) :
    let t := tableChanged s ix p
    t.presult = .ok ∧ t.table.get ix = p ∧ (validMask t.table).getLsbD ix.val = p.valid
      ∧ (∀ j, j ≠ ix → t.table.get j = s.table.get j)
      ∧ (∀ n, profileChangeOn ix (s.lane n) (t.lane n))
      ∧ t.staging = s.staging ∧ t.pending = s.pending ∧ t.time = s.time ∧ t.ctl = s.ctl
      ∧ t.meters = s.meters ∧ t.queue = s.queue ∧ busKept s t := by
  have table : (tableChanged s ix p).table = s.table.set ix p := State.raiseRequest_table _
  have lane (n : LaneId) : (tableChanged s ix p).lane n
      = ((s.lane n).killMatcher ix).profileChanged ix :=
    (State.raiseRequest_lane _ _).trans (Eight.get_mapIdx _ _ _)
  refine ⟨State.raiseRequest_presult _, by simp [table], by simp [table, getLsbD_validMask],
    fun j hj => by simp [table, hj], fun n => lane n ▸ profileChangeOn_lane _ ix,
    State.raiseRequest_staging _, State.raiseRequest_pending _, State.raiseRequest_time _,
    State.raiseRequest_ctl _, State.raiseRequest_meters _, State.raiseRequest_queue _,
    busKept_raise rfl⟩

/-- COMMIT judges the staging set: one that passes becomes the entry, and any other gives PRESULT alone
(R50). -/
theorem commitProfile_cases (s : State) (ix : ProfileIx) :
    (s.staging.commitResult = .ok ∧ s.commitProfile ix = tableChanged s ix ⟨true, s.staging⟩)
    ∨ (s.staging.commitResult ≠ .ok
        ∧ s.commitProfile ix = { s with presult := s.staging.commitResult }) := by
  unfold State.commitProfile
  split
  · next h => exact .inl ⟨h, rfl⟩
  · next h => exact .inr ⟨h, rfl⟩

/-- Settles O18: the checks in their order, and what a changed entry leaves of the table and the lanes. -/
theorem commitChecksAndChanges : Obligations.CommitChecksAndChanges := by
  refine ⟨fun p => ?_, fun s ix hp => ?_, fun s ix hp => ?_⟩
  · dsimp only
    rw [← rangesOk_iff, ← nominalsOk_iff]
    exact iff_of_firstFailure (commitResult_cases p)
  · simp only [exec, execCommit, State.hostWrite_taken s _ hp]
    refine ⟨fun failed => ?_, fun ok => ⟨_, rfl, ?_⟩⟩
    · obtain ⟨ok, _⟩ | ⟨_, h⟩ := commitProfile_cases s ix
      · exact absurd ok failed
      · rw [h]
    · obtain ⟨_, h⟩ | ⟨failed, _⟩ := commitProfile_cases s ix
      · rw [h]
        exact tableChanged_leaves s ix ⟨true, s.staging⟩
      · exact absurd ok failed
  · simp only [exec, execClear, State.hostWrite_taken s _ hp]
    exact ⟨_, rfl, tableChanged_leaves s ix .empty⟩

/-- Settles O19: LOAD by evaluation, and the zeros of an EMPTY entry (R45). -/
theorem loadCopiesEntry : Obligations.LoadCopiesEntry := by
  intro s ix hp
  have load : exec (.load ix) s = .next (s.loadProfile ix) := by
    simp only [exec, execLoad, State.hostWrite_taken s _ hp]
  refine ⟨load, fun ok empty => ⟨s.loadProfile ix, load, ?_⟩⟩
  rw [profileOk, empty] at ok
  exact ok

end Sys2Proof.Laws
end

section
/-! SUPPORT. A matcher that reads what the encoder sends (O20): the lead, the bits one by one, and the stop
mark, each read by the matcher's own step. -/

namespace Sys2Proof.Laws

open Sys2Proof.Machine Sys2Proof.Safety

/-! ## What the commit checks promise of the intervals (R46, R49) -/

/-- An entry that may be committed passes every check. -/
theorem commitResult_ok_iff (p : ProfileFields) : p.commitResult = .ok ↔
    rangesOk p ∧ nominalsOk p ∧ p.bitsOk ∧ p.leadOk ∧ p.unambiguous := by
  obtain ⟨_, _, _, _, _, ok⟩ := iff_of_firstFailure (commitResult_cases p)
  exact ok

/-- A triple holds its nominal where its entry passes the checks. -/
theorem holds_nom {p : ProfileFields} (ok : p.commitResult = .ok) {t : Triple}
    (used : usedTriple p t) : t.holds t.nom := by
  obtain ⟨_, nominal, _⟩ := (commitResult_ok_iff p).mp ok
  exact (nominalsOk_iff p).mp nominal t used

/-- Two triples that hold one interval overlap (R46). -/
theorem overlaps_of_holds {a b : Triple} {v : Word} (ha : a.holds v) (hb : b.holds v) :
    a.overlaps b :=
  ⟨BitVec.le_trans ha.1 hb.2, BitVec.le_trans hb.1 ha.2⟩

/-- No bit 1 is taken for a bit 0 (check 5 of R49, R58). -/
theorem one_not_zero {p : ProfileFields} (ok : p.commitResult = .ok) :
    ¬ (p.zeroMark.holds p.oneMark.nom ∧ p.zeroSpace.holds p.oneSpace.nom) := by
  obtain ⟨_, _, _, _, apart, _⟩ := (commitResult_ok_iff p).mp ok
  rintro ⟨mark, space⟩
  obtain h | h := apart
  · exact h (overlaps_of_holds mark (holds_nom ok (by simp [usedTriple])))
  · exact h (overlaps_of_holds space (holds_nom ok (by simp [usedTriple])))

/-- No repeat space is taken for a lead space (check 5 of R49, R56). -/
theorem repeat_not_lead {p : ProfileFields} (ok : p.commitResult = .ok)
    (hr : p.hasRepeat = true) : ¬ p.leadSpace.holds p.repeatSpace.nom := by
  obtain ⟨_, _, _, _, _, apart⟩ := (commitResult_ok_iff p).mp ok
  exact fun h => apart hr (overlaps_of_holds h (holds_nom ok (.inr (.inl ⟨hr, rfl⟩))))

/-! ## The value, bit by bit (R62) -/

/-- The value once the bits `bs` have been taken behind `count` others. -/
def readBits (p : ProfileFields) (count : Nat) (value : BitVec 64) : List Bool → BitVec 64
  | [] => value
  | b :: bs => readBits p (count + 1) (p.addBit value count b) bs

theorem readBits_append (p : ProfileFields) (count : Nat) (value : BitVec 64) (as bs : List Bool) :
    readBits p count value (as ++ bs)
      = readBits p (count + as.length) (readBits p count value as) bs := by
  induction as generalizing count value with
  | nil => rfl
  | cons a as ih =>
    rw [List.cons_append, readBits, ih, readBits, List.length_cons,
      Nat.add_right_comm, Nat.add_assoc]

theorem getLsbD_bit (bit : Bool) (k : Nat) :
    (if bit then 1 else 0 : BitVec 64).getLsbD k = (decide (k = 0) && bit) := by
  cases bit <;> simp

/-- Sent low bit first, bit `count` of the value is the bit taken (R62). -/
theorem getLsbD_addBit_low (p : ProfileFields) (h : p.msbFirst = false) (value : BitVec 64)
    (count k : Nat) (bit : Bool) (hk : k < 64) :
    (p.addBit value count bit).getLsbD k = (value.getLsbD k || (decide (k = count) && bit)) := by
  have place : (decide (count ≤ k) && decide (k - count = 0)) = decide (k = count) := by
    rw [← Bool.decide_and]
    exact decide_eq_decide.mpr (by omega)
  simp only [ProfileFields.addBit, h, Bool.false_eq_true, if_false, BitVec.getLsbD_or,
    BitVec.getLsbD_shiftLeft, getLsbD_bit, hk, decide_true, Bool.true_and, ← place,
    ← decide_not, Nat.not_lt, Bool.and_assoc]

/-- Sent high bit first, the bit taken is the lowest and the others rise by one place (R62). -/
theorem getLsbD_addBit_high (p : ProfileFields) (h : p.msbFirst = true) (value : BitVec 64)
    (count k : Nat) (bit : Bool) (hk : k < 64) :
    (p.addBit value count bit).getLsbD k = if k = 0 then bit else value.getLsbD (k - 1) := by
  simp only [ProfileFields.addBit, h, if_true, BitVec.getLsbD_or, BitVec.getLsbD_shiftLeft,
    getLsbD_bit, hk, decide_true, Bool.true_and]
  by_cases h0 : k = 0
  · simp [h0]
  · have : ¬ k < 1 := by omega
    simp [h0, this]

/-- Read low bit first, the low `n` bits of a value come back (R62, R64). -/
theorem getLsbD_readBits_low (p : ProfileFields) (h : p.msbFirst = false) (value : BitVec 64)
    (n k : Nat) (hk : k < 64) :
    (readBits p 0 0 ((List.range n).map value.getLsbD)).getLsbD k
      = (decide (k < n) && value.getLsbD k) := by
  induction n with
  | zero => simp [readBits]
  | succ n ih =>
    rw [List.range_succ, List.map_append, readBits_append]
    simp only [List.map_cons, List.map_nil, readBits, List.length_map, List.length_range,
      Nat.zero_add, getLsbD_addBit_low p h _ _ _ _ hk, ih]
    obtain lt | rfl | gt := Nat.lt_trichotomy k n
    · simp [lt, lt.ne, Nat.lt_succ_of_lt lt]
    · simp
    · simp [gt.ne', Nat.not_lt.mpr gt.le, Nat.not_lt.mpr (Nat.succ_le_of_lt gt)]

/-- Read high bit first, the low `n` bits of a value come in below what was read before (R62, R64). -/
theorem getLsbD_readBits_high (p : ProfileFields) (h : p.msbFirst = true) (value read : BitVec 64)
    (count n k : Nat) (hk : k < 64) :
    (readBits p count read ((List.range n).map value.getLsbD).reverse).getLsbD k
      = if k < n then value.getLsbD k else read.getLsbD (k - n) := by
  induction n generalizing count read with
  | zero => simp [readBits]
  | succ n ih =>
    rw [List.range_succ, List.map_append, List.reverse_append]
    simp only [List.map_cons, List.map_nil, List.reverse_singleton, List.singleton_append, readBits]
    rw [ih, getLsbD_addBit_high p h _ _ _ _ (by omega)]
    obtain lt | rfl | gt := Nat.lt_trichotomy k n
    · simp [lt, Nat.lt_succ_of_lt lt]
    · simp
    · have above : k - n ≠ 0 := by omega
      simp [Nat.not_lt.mpr gt.le, Nat.not_lt.mpr (Nat.succ_le_of_lt gt), above, Nat.sub_sub]

/-- The bits in the order they are sent are read back as the low bits of the value, in either order. -/
theorem getLsbD_readBits_sendOrder (p : ProfileFields) (n : Nat) (value : BitVec 64) (k : Nat)
    (hk : k < 64) :
    (readBits p 0 0 (p.sendOrder n value)).getLsbD k = (decide (k < n) && value.getLsbD k) := by
  unfold ProfileFields.sendOrder
  dsimp only
  cases h : p.msbFirst with
  | false => exact getLsbD_readBits_low p h value n k hk
  | true =>
    rw [if_pos rfl, getLsbD_readBits_high p h value 0 0 n k hk]
    by_cases lt : k < n <;> simp [lt]

/-! ## The matcher's way through a frame that fits (R55 to R58) -/

section
variable {p : ProfileFields} {v : Word} (bits : Nat) (value : BitVec 64) (mark : Word)

theorem step_leadMark (h : p.leadMark.holds v) :
    Matcher.step ⟨.expectLeadMark, bits, value, mark⟩ p v = ⟨.expectLeadSpace, bits, value, mark⟩ :=
  if_pos h

theorem step_leadSpace (h : p.leadSpace.holds v) :
    Matcher.step ⟨.expectLeadSpace, bits, value, mark⟩ p v = ⟨.expectMark, bits, value, mark⟩ :=
  if_pos h

theorem step_repeatSpace (hl : ¬ p.leadSpace.holds v) (hr : p.hasRepeat = true)
    (h : p.repeatSpace.holds v) :
    Matcher.step ⟨.expectLeadSpace, bits, value, mark⟩ p v
      = ⟨.expectRepeatStop, bits, value, mark⟩ :=
  (if_neg hl).trans (if_pos ⟨hr, h⟩)

theorem step_repeatStop (h : p.stopMark.holds v) :
    Matcher.step ⟨.expectRepeatStop, bits, value, mark⟩ p v = ⟨.repeatEnd, bits, value, mark⟩ :=
  if_pos h

theorem step_mark (h : p.zeroMark.holds v ∨ p.oneMark.holds v ∨ p.stopMark.holds v) :
    Matcher.step ⟨.expectMark, bits, value, mark⟩ p v = ⟨.expectSpaceOrEnd, bits, value, v⟩ :=
  if_pos h

theorem step_zero (hb : bits ≠ p.bitMax.toNat) (hm : p.zeroMark.holds mark)
    (h : p.zeroSpace.holds v) :
    Matcher.step ⟨.expectSpaceOrEnd, bits, value, mark⟩ p v
      = ⟨.expectMark, bits + 1, p.addBit value bits false, mark⟩ :=
  (if_neg hb).trans (if_pos ⟨hm, h⟩)

theorem step_one (hb : bits ≠ p.bitMax.toNat) (hz : ¬ (p.zeroMark.holds mark ∧ p.zeroSpace.holds v))
    (hm : p.oneMark.holds mark) (h : p.oneSpace.holds v) :
    Matcher.step ⟨.expectSpaceOrEnd, bits, value, mark⟩ p v
      = ⟨.expectMark, bits + 1, p.addBit value bits true, mark⟩ :=
  (if_neg hb).trans ((if_neg hz).trans (if_pos ⟨hm, h⟩))

end

/-- A matcher of profile `p` takes the intervals `vs`. -/
def feed (p : ProfileFields) (m : Matcher) (vs : List Word) : Matcher :=
  vs.foldl (fun m v => m.step p v) m

theorem matcherAfter_eq (p : ProfileFields) (vs : List Word) :
    matcherAfter p vs = feed p (Profile.startMatcher ⟨true, p⟩) vs := rfl

@[simp] theorem feed_nil (p : ProfileFields) (m : Matcher) : feed p m [] = m := rfl

@[simp] theorem feed_cons (p : ProfileFields) (m : Matcher) (v : Word) (vs : List Word) :
    feed p m (v :: vs) = feed p (m.step p v) vs := rfl

theorem feed_append (p : ProfileFields) (m : Matcher) (vs ws : List Word) :
    feed p m (vs ++ ws) = feed p (feed p m vs) ws := List.foldl_append

/-- The lead is read where the profile has one, and a matcher that expects none is past it (R55, R56). -/
theorem feed_lead {p : ProfileFields} (ok : p.commitResult = .ok) :
    feed p (Profile.startMatcher ⟨true, p⟩)
      (if p.hasLead then [p.leadMark.nom, p.leadSpace.nom] else []) = ⟨.expectMark, 0, 0, 0⟩ := by
  cases h : p.hasLead with
  | false => simp [Profile.startMatcher, h]
  | true =>
    have mark : p.leadMark.holds p.leadMark.nom := holds_nom ok (.inl ⟨h, .inl rfl⟩)
    have space : p.leadSpace.holds p.leadSpace.nom := holds_nom ok (.inl ⟨h, .inr rfl⟩)
    simp only [Profile.startMatcher, h, if_true, feed_cons, feed_nil, step_leadMark _ _ _ mark,
      step_leadSpace _ _ _ space]

/-- A bit's two intervals are read as that bit (R57, R58). -/
theorem feed_bit {p : ProfileFields} (ok : p.commitResult = .ok) (bits : Nat) (value : BitVec 64)
    (mark : Word) (bit : Bool) (hb : bits ≠ p.bitMax.toNat) :
    ∃ mark', feed p ⟨.expectMark, bits, value, mark⟩ (p.bitIntervals bit)
      = ⟨.expectMark, bits + 1, p.addBit value bits bit, mark'⟩ := by
  cases bit with
  | false =>
    have mark : p.zeroMark.holds p.zeroMark.nom := holds_nom ok (by simp [usedTriple])
    have space : p.zeroSpace.holds p.zeroSpace.nom := holds_nom ok (by simp [usedTriple])
    exact ⟨_, (congrArg (Matcher.step · p _) (step_mark _ _ _ (.inl mark))).trans
      (step_zero _ _ _ hb mark space)⟩
  | true =>
    have mark : p.oneMark.holds p.oneMark.nom := holds_nom ok (by simp [usedTriple])
    have space : p.oneSpace.holds p.oneSpace.nom := holds_nom ok (by simp [usedTriple])
    exact ⟨_, (congrArg (Matcher.step · p _) (step_mark _ _ _ (.inr (.inl mark)))).trans
      (step_one _ _ _ hb (one_not_zero ok) mark space)⟩

/-- The bits are read one after the other, up to the profile's greatest number (R58). -/
theorem feed_bits {p : ProfileFields} (ok : p.commitResult = .ok) (bs : List Bool) (bits : Nat)
    (value : BitVec 64) (mark : Word) (hb : bits + bs.length ≤ p.bitMax.toNat) :
    ∃ mark', feed p ⟨.expectMark, bits, value, mark⟩ (bs.flatMap p.bitIntervals)
      = ⟨.expectMark, bits + bs.length, readBits p bits value bs, mark'⟩ := by
  induction bs generalizing bits value mark with
  | nil => exact ⟨mark, rfl⟩
  | cons b bs ih =>
    rw [List.length_cons] at hb
    obtain ⟨mark1, first⟩ := feed_bit ok bits value mark b (by omega)
    obtain ⟨mark2, rest⟩ := ih (bits + 1) (p.addBit value bits b) mark1 (by omega)
    refine ⟨mark2, ?_⟩
    rw [List.flatMap_cons, feed_append, first, rest, readBits, List.length_cons, Nat.add_right_comm,
      Nat.add_assoc]

/-- The DATA form leaves the matcher at the stop mark, with the bits it sent (R57, R64). -/
theorem matcherAfter_dataIntervals {p : ProfileFields} (ok : p.commitResult = .ok) (n : Nat)
    (value : BitVec 64) (hn : n ≤ p.bitMax.toNat) :
    matcherAfter p (p.dataIntervals n value)
      = ⟨.expectSpaceOrEnd, n, readBits p 0 0 (p.sendOrder n value), p.stopMark.nom⟩ := by
  have stop : p.stopMark.holds p.stopMark.nom := holds_nom ok (by simp [usedTriple])
  have length : (p.sendOrder n value).length = n := by
    unfold ProfileFields.sendOrder
    cases p.msbFirst <;> simp
  obtain ⟨mark, bits⟩ := feed_bits ok (p.sendOrder n value) 0 0 0 (by rwa [length, Nat.zero_add])
  rw [matcherAfter_eq, ProfileFields.dataIntervals, feed_append, feed_append, feed_lead ok, bits,
    feed_cons, feed_nil, step_mark _ _ _ (.inr (.inr stop)), length, Nat.zero_add]

/-- The REPEAT form leaves the matcher at its end (R56, R65). -/
theorem matcherAfter_repeatIntervals {p : ProfileFields} (ok : p.commitResult = .ok)
    (hr : p.hasRepeat = true) : (matcherAfter p p.repeatIntervals).state = .repeatEnd := by
  obtain ⟨_, _, _, lead, _⟩ := (commitResult_ok_iff p).mp ok
  have hl : p.hasLead = true := lead.resolve_left (by simp [hr])
  have mark : p.leadMark.holds p.leadMark.nom := holds_nom ok (.inl ⟨hl, .inl rfl⟩)
  have space : p.repeatSpace.holds p.repeatSpace.nom := holds_nom ok (.inr (.inl ⟨hr, rfl⟩))
  have stop : p.stopMark.holds p.stopMark.nom := holds_nom ok (by simp [usedTriple])
  simp only [matcherAfter_eq, ProfileFields.repeatIntervals, feed_cons, feed_nil,
    Profile.startMatcher, hl, if_true, step_leadMark _ _ _ mark,
    step_repeatSpace _ _ _ (repeat_not_lead ok hr) hr space, step_repeatStop _ _ _ stop]

/-- Settles O20: the matcher's state after either form, judged at the GAP close. -/
theorem encodedSignalDecodes : Obligations.EncodedSignalDecodes := by
  refine fun p ix ok => ⟨fun n value low high => ?_, fun hr => ?_⟩
  · have stop : p.stopMark.holds p.stopMark.nom := holds_nom ok (by simp [usedTriple])
    refine ⟨readBits p 0 0 (p.sendOrder n value), ?_,
      fun k hk => getLsbD_readBits_sendOrder p n value k hk⟩
    rw [matcherAfter_dataIntervals ok n value high]
    exact if_pos ⟨stop, low, high⟩
  · simp only [Matcher.outcome, matcherAfter_repeatIntervals ok hr]

end Sys2Proof.Laws
end

section
/-! SUPPORT. What the engines post and what becomes of the meter unit a lane holds: no lane posts an OVERFLOW
event, and a lane that measures goes on at work until its unit is free. -/

namespace Sys2Proof.Machine

open Sys2Proof.Safety

/-! ## Posts -/

/-- None of the events is OVERFLOW, which the queue alone makes (R163). -/
def noOverflow (ps : List Post) : Prop := ∀ p ∈ ps, p.1 ≠ .overflow

@[simp] theorem noOverflow_nil : noOverflow [] := fun _ h => (nomatch h)

@[simp] theorem noOverflow_cons (p : Post) (ps : List Post) :
    noOverflow (p :: ps) ↔ p.1 ≠ .overflow ∧ noOverflow ps := List.forall_mem_cons

@[simp] theorem noOverflow_append (ps qs : List Post) :
    noOverflow (ps ++ qs) ↔ noOverflow ps ∧ noOverflow qs := List.forall_mem_append

theorem Lane.reportDry_posts (l : Lane) : noOverflow l.reportDry.posts := by
  obtain ⟨_, _, h⟩ | ⟨_, h⟩ := l.reportDry_cases <;> simp [h]

theorem Lane.finishStopping_posts (l : Lane) : noOverflow l.finishStopping.posts := by
  obtain ⟨_, _, h⟩ | ⟨_, h⟩ := l.finishStopping_cases <;> simp [h]

theorem Lane.checkFlush_posts (l : Lane) : noOverflow l.checkFlush.posts := by
  obtain ⟨_, _, _, _, h⟩ | ⟨_, h⟩ := l.checkFlush_cases <;> simp [h]

theorem Lane.returnDone_posts (l : Lane) : noOverflow l.returnDone.posts := by
  obtain ⟨_, h⟩ | ⟨_, _, _, _, ⟨_, h⟩ | ⟨_, h⟩⟩ := l.returnDone_cases <;> rw [h]
  · simp
  · simp [Lane.endFlush]
  · exact Lane.checkFlush_posts _

theorem Lane.writePosted_posts (l : Lane) (w : Word) : noOverflow (l.writePosted w).posts := by
  obtain ⟨_, h⟩ | ⟨_, h⟩ := l.writePosted_cases w <;> rw [h]
  · simp
  · exact Lane.checkFlush_posts _

theorem Lane.flush_posts (l : Lane) : noOverflow l.flush.posts := by
  unfold Lane.flush
  split
  · simp
  · split
    · exact Lane.checkFlush_posts _
    · simp

theorem Lane.abortFlush_posts (l : Lane) : noOverflow l.abortFlush.posts := by
  unfold Lane.abortFlush
  split <;> simp [Lane.endFlush]

theorem Lane.finishCapture_posts (l : Lane) : noOverflow l.finishCapture.posts := by
  obtain ⟨_, _, _, _, _, h⟩ | h := l.finishCapture_cases <;> simp [h]

theorem Lane.beginFrame_posts (l : Lane) (table : Eight Profile) (e : EdgeStamp) :
    noOverflow (l.beginFrame table e).posts := by
  unfold Lane.beginFrame
  dsimp only
  split
  · simp
  · split
    · simp
    · split
      · simp
      · exact Lane.reportDry_posts _

theorem Lane.captureEdge_posts (l : Lane) (table : Eight Profile) (now : Stamp) (active : Bool)
    (e : EdgeStamp) : noOverflow (l.captureEdge table now active e).posts := by
  unfold Lane.captureEdge
  dsimp only
  split
  · split
    · simp [LaneOut.next, Lane.beginFrame_posts]
    · simp
  · exact Lane.finishCapture_posts _
  · simp

theorem Lane.captureGlitch_posts (l : Lane) (table : Eight Profile) :
    noOverflow (l.captureGlitch table).posts := by
  obtain ⟨_, _, _, _, h⟩ | ⟨_, _, _, _, h⟩ | ⟨_, _, h⟩ | ⟨_, _, h⟩ :=
    l.captureGlitch_cases table <;> simp [h, Lane.finishCapture_posts]

theorem Lane.reachFramePoint_posts (l : Lane) (table : Eight Profile) (f : Frame) :
    noOverflow (l.reachFramePoint table f).posts := by
  rw [l.reachFramePoint_eq]
  split
  · simp
  · exact Lane.finishCapture_posts _

theorem Lane.recordDone_posts (l : Lane) : noOverflow l.recordDone.posts := by
  unfold Lane.recordDone
  split <;> simp [Lane.finishCapture_posts]

theorem Lane.disposeResult_posts (l : Lane) (u : MeterUnit) (unit : UnitId) (why : Close) :
    noOverflow (l.disposeResult u unit why).posts := by
  obtain ⟨_, h⟩ | ⟨_, _, h⟩ | ⟨_, _, _, _, _, h⟩ | ⟨_, _, _, _, h⟩ :=
    l.disposeResult_cases u unit why <;> simp [h, Lane.reportDry_posts]

theorem Lane.finishReplay_posts (l : Lane) : noOverflow l.finishReplay.posts := by
  obtain ⟨_, _, _, _, _, h⟩ | h := l.finishReplay_cases <;> simp [h]

theorem Lane.seekSpare_posts (l : Lane) : noOverflow l.seekSpare.posts := by
  unfold Lane.seekSpare
  dsimp only
  split
  · exact Lane.reportDry_posts _
  · simp

theorem Lane.stopReplay_posts (l : Lane) : noOverflow l.stopReplay.posts := by
  unfold Lane.stopReplay
  split <;> simp [Lane.finishReplay_posts]

theorem Lane.abortReplay_posts (l : Lane) : noOverflow l.abortReplay.posts := by
  unfold Lane.abortReplay
  split <;> simp [Lane.finishReplay_posts]

theorem Lane.replayDone_posts (l : Lane) : noOverflow l.replayDone.posts := by
  unfold Lane.replayDone
  split <;> simp [LaneOut.next, Lane.finishReplay_posts, Lane.seekSpare_posts]

/-! ## Steps that leave the life of the lane -/

theorem Lane.reportDry_life (l : Lane) : l.reportDry.lane.life = l.life := by
  obtain ⟨_, _, h⟩ | ⟨_, h⟩ := l.reportDry_cases
  · rw [h]
  · rw [h]; rfl

theorem Lane.fetchWord_life (l : Lane) (data : Word) : (l.fetchWord data).life = l.life := by
  unfold Lane.fetchWord
  split <;> rfl

theorem Lane.takeFetched_life (l : Lane) (d : Desc) : (l.takeFetched d).life = l.life := by
  unfold Lane.takeFetched
  split <;> rfl

theorem Lane.mapOldest_life (l : Lane) (f : Record → Record) : (l.mapOldest f).life = l.life := by
  obtain ⟨_, h⟩ | ⟨_, _, _, h⟩ := l.mapOldest_cases f <;> rw [h]

theorem Lane.headerDone_life (l : Lane) : l.headerDone.life = l.life := by
  unfold Lane.headerDone
  split
  · exact l.mapOldest_life _
  · rfl
  · rfl

theorem Lane.disposeResult_life (l : Lane) (u : MeterUnit) (unit : UnitId) (why : Close) :
    (l.disposeResult u unit why).lane.life = l.life := by
  obtain ⟨_, h⟩ | ⟨_, _, h⟩ | ⟨_, _, _, _, _, h⟩ | ⟨_, _, _, _, h⟩ :=
    l.disposeResult_cases u unit why <;> rw [h]
  · rfl
  · rfl
  · exact Lane.requestFetch_life _
  · exact Lane.reportDry_life _

theorem Lane.endRecord_life (l : Lane) (status : DescStatus) : (l.endRecord status).life = l.life := by
  obtain ⟨_, h⟩ | ⟨_, _, h⟩ := l.endRecord_cases status <;> rw [h]

theorem Lane.takeRecord_life (l : Lane) (d : Desc) : (l.takeRecord d).life = l.life := by
  obtain ⟨_, h⟩ | ⟨_, h⟩ := l.takeRecord_cases d <;> rw [h]

theorem Lane.takeSpare_life (l : Lane) : l.takeSpare.life = l.life := by
  obtain ⟨_, _, _, _, _, _, h⟩ | h := l.takeSpare_cases <;> rw [h]
  exact (Lane.requestFetch_life _).trans (Lane.takeRecord_life _ _)

theorem Lane.fillWord_life (l : Lane) (data : Word) : (l.fillWord data).life = l.life := by
  unfold Lane.fillWord
  dsimp only
  split
  · rfl
  · split <;> rfl

theorem Lane.checkHeader_life (l : Lane) (table : Eight Profile) (c : ReplayRecord) :
    (l.checkHeader table c).life = l.life := by
  unfold Lane.checkHeader
  dsimp only
  split
  · split
    · exact l.endRecord_life _
    · split
      · split
        · rfl
        · split <;> rfl
      · exact l.endRecord_life _
  · rfl

theorem Lane.loadDone_life (l : Lane) (table : Eight Profile) : (l.loadDone table).life = l.life := by
  unfold Lane.loadDone
  split
  · split
    · exact l.checkHeader_life _ _
    · rfl
  · rfl

theorem Lane.beginInterval_life (l : Lane) (table : Eight Profile) (c : ReplayRecord) :
    (l.beginInterval table c).life = l.life := by
  unfold Lane.beginInterval
  dsimp only
  split
  · split <;> rfl
  · split
    · split
      · exact Lane.endRecord_life _ _
      · rfl
    · exact Lane.endRecord_life _ _

theorem Lane.firstInterval_life (l : Lane) (table : Eight Profile) (c : ReplayRecord) :
    (l.firstInterval table c).life = l.life := by
  unfold Lane.firstInterval
  split
  · exact l.endRecord_life _
  · exact l.beginInterval_life _ _

theorem Lane.endPlaying_life (l : Lane) (table : Eight Profile) (c : ReplayRecord) :
    (l.endPlaying table c).life = l.life := by
  unfold Lane.endPlaying
  split
  · exact l.endRecord_life _
  · split
    · rfl
    · exact l.beginInterval_life _ _

theorem Lane.endTrail_life (l : Lane) (table : Eight Profile) (c : ReplayRecord) :
    (l.endTrail table c).life = l.life := by
  unfold Lane.endTrail
  dsimp only
  split
  · exact Lane.endRecord_life _ _
  · split
    · exact Lane.endRecord_life _ _
    · split
      · exact Lane.beginInterval_life _ _ _
      · rfl

theorem Lane.profileChanged_life (l : Lane) (ix : ProfileIx) :
    (l.profileChanged ix).life = l.life := by
  rw [Laws.profileChanged_eq]

theorem Lane.killMatcher_life (l : Lane) (ix : ProfileIx) : (l.killMatcher ix).life = l.life := by
  rw [Laws.killMatcher_eq]

theorem Lane.takeWord_life (l : Lane) (p : Purpose) (data : Word) :
    (l.takeWord p data).life = l.life := by
  cases p with
  | fetch => exact l.fetchWord_life data
  | drain => exact Lane.mapOldest_life _ _
  | fill => exact l.fillWord_life data
  | load | decode | header | writeback => rfl

/-! ## Lanes that measure -/

/-- A lane at work in METER is still so after the step (R71). -/
abbrev stillMeters (l k : Lane) : Prop := l.runs .meter → k.runs .meter

theorem EngineStep.stillMeters {l k : Lane} (h : EngineStep l k) (life : k.life = l.life) :
    stillMeters l k := by
  unfold Machine.stillMeters Lane.runs
  rw [h.regs, life]
  exact id

theorem stillMeters_of_mode {l k : Lane} (h : l.regs.lmode ≠ .meter) : stillMeters l k :=
  fun hr => absurd hr.1 h

theorem stillMeters_of_idle {l k : Lane} (h : l.life.active = false) : stillMeters l k :=
  fun hr => absurd hr.2 (by simp [h])

/-- A flush is no work of an engine (R144). -/
theorem Lane.checkFlush_stillMeters (l : Lane) : stillMeters l l.checkFlush.lane := by
  obtain ⟨hl, _, _, _, _⟩ | ⟨_, h⟩ := l.checkFlush_cases
  · refine stillMeters_of_idle ?_
    cases k : l.life <;> simp_all [Life.isFlushing, Life.active]
  · rw [h]
    exact id

theorem Lane.returnDone_stillMeters (l : Lane) : stillMeters l l.returnDone.lane := by
  obtain ⟨_, h⟩ | ⟨t, _, l1, hl1, ⟨hf, _⟩ | ⟨_, h⟩⟩ := l.returnDone_cases
  · rw [h]
    exact id
  · exact stillMeters_of_idle (by simp [hf, Life.active])
  · rw [h]
    refine fun hr => Lane.checkFlush_stillMeters _ ((l1.requestFetch_step.stillMeters
      l1.requestFetch_life) ?_)
    rw [hl1]
    exact hr

theorem Lane.writePosted_stillMeters (l : Lane) (w : Word) :
    stillMeters l (l.writePosted w).lane := by
  obtain ⟨_, h⟩ | ⟨_, h⟩ := l.writePosted_cases w <;> rw [h]
  · exact id
  · exact fun hr => Lane.checkFlush_stillMeters _
      ((Lane.requestFetch_step _).stillMeters (Lane.requestFetch_life _) hr)

theorem Lane.skip_stillMeters (l : Lane) (arg : BitVec 12) : stillMeters l (l.skip arg) := by
  refine (l.skip_step arg).stillMeters ?_
  unfold Lane.skip
  split <;> rfl

theorem Lane.seeTransition_stillMeters (l : Lane) (table : Eight Profile) (now : Stamp) :
    stillMeters l (l.seeTransition table now).lane := by
  unfold Lane.seeTransition
  split
  · dsimp only
    split
    · exact id
    · split
      · next hr => exact stillMeters_of_mode (by rw [hr.1]; decide)
      · exact id
  · exact id

theorem Lane.seeTransition_posts (l : Lane) (table : Eight Profile) (now : Stamp) :
    noOverflow (l.seeTransition table now).posts := by
  unfold Lane.seeTransition
  split
  · dsimp only
    split
    · simp
    · split
      · exact Lane.captureGlitch_posts _ _
      · simp
  · simp

/-! ## Meter units -/

/-- A step of meter lane `l` that holds unit `u`: the unit comes free, or it stays claimed and the lane goes on
measuring (R71, R72). -/
structure MeterStep (l : Lane) (u : MeterUnit) (o : MeterOut) : Prop where
  posts : noOverflow o.posts
  claim : l.runs .meter → o.unit.claim = none ∨ (o.unit.claim = u.claim ∧ o.lane.runs .meter)

/-- The lane stays as it is, and so does its claim. -/
theorem MeterStep.quiet (l : Lane) {u v : MeterUnit} (h : v.claim = u.claim) :
    MeterStep l u ⟨l, v, []⟩ := ⟨noOverflow_nil, fun hr => .inr ⟨h, hr⟩⟩

/-- A change of the unit's counts before the step. -/
theorem MeterStep.ofCounts {l : Lane} {u v : MeterUnit} {o : MeterOut} (step : MeterStep l v o)
    (h : v.claim = u.claim) : MeterStep l u o := ⟨step.posts, h ▸ step.claim⟩

theorem Lane.finishMeter_meterStep (l : Lane) (u : MeterUnit) : MeterStep l u (l.finishMeter u) := by
  obtain ⟨_, _, _, h⟩ | ⟨_, _, _, h⟩ | ⟨_, h⟩ := l.finishMeter_cases u <;> rw [h]
  · exact ⟨by simp, fun _ => .inl rfl⟩
  · exact ⟨l.finishStopping_posts, fun _ => .inl rfl⟩
  · exact .quiet l rfl

theorem MeterUnit.goOn_claim (u : MeterUnit) (l : Lane) (why : Close) (now edge : Stamp) :
    (u.goOn l why now edge).claim = u.claim := by
  unfold MeterUnit.goOn
  split
  · split <;> rfl
  · rfl

theorem Lane.endMeasurement_meterStep (l : Lane) (u : MeterUnit) (unit : UnitId) (why : Close)
    (now edge : Stamp) : MeterStep l u (l.endMeasurement u unit why now edge) := by
  obtain ⟨posts, claim⟩ := Lane.finishMeter_meterStep (l.disposeResult u unit why).lane
    (u.goOn l why now edge)
  rw [u.goOn_claim] at claim
  have still := (l.disposeResult_step u unit why).stillMeters (l.disposeResult_life u unit why)
  exact ⟨(noOverflow_append _ _).mpr ⟨l.disposeResult_posts u unit why, posts⟩, claim ∘ still⟩

theorem Lane.endItem_meterStep (l : Lane) (u : MeterUnit) (unit : UnitId) (now : Stamp)
    (e : EdgeStamp) : MeterStep l u (l.endItem u unit now e) := by
  unfold Lane.endItem
  dsimp only
  split
  · exact .ofCounts (l.endMeasurement_meterStep _ _ _ _ _) rfl
  · split <;> exact .quiet l rfl

theorem Lane.meterEdge_meterStep (l : Lane) (u : MeterUnit) (unit : UnitId) (now : Stamp)
    (active : Bool) (e : EdgeStamp) : MeterStep l u (l.meterEdge u unit now active e) := by
  unfold Lane.meterEdge
  split
  · split <;> exact .quiet l rfl
  · split
    · exact l.endItem_meterStep _ _ _ _
    · split <;> exact .quiet l rfl
  · exact .quiet l rfl

theorem Lane.stopMeter_meterStep (l : Lane) (u : MeterUnit) : MeterStep l u (l.stopMeter u) := by
  unfold Lane.stopMeter
  split
  · exact .ofCounts (l.finishMeter_meterStep _) rfl
  · exact .quiet l rfl

theorem Lane.abortMeter_meterStep (l : Lane) (u : MeterUnit) (unit : UnitId) (now : Stamp) :
    MeterStep l u (l.abortMeter u unit now) := by
  unfold Lane.abortMeter
  split
  · exact l.endMeasurement_meterStep _ _ _ _ _
  · exact l.endMeasurement_meterStep _ _ _ _ _
  · exact .quiet l rfl

theorem Lane.resultDone_meterStep (l : Lane) (u : MeterUnit) : MeterStep l u (l.resultDone u) := by
  unfold Lane.resultDone
  split
  · exact .quiet l rfl
  · obtain ⟨posts, claim⟩ := Lane.finishMeter_meterStep { l with result := none } u
    exact ⟨(noOverflow_cons _ _).mpr ⟨nofun, posts⟩, claim⟩

end Sys2Proof.Machine
end

section
/-! SUPPORT. What every command keeps of the profile table, the meter pool and the event queue, and the
obligation that rests on it (O56). -/

namespace Sys2Proof.Laws

open Sys2Proof.Machine Sys2Proof.Safety

/-! ## The event queue (R163, R167, R170 to R172) -/

/-- The event queue is right. -/
abbrev queueRight (q : EventQueue) : Prop := queueOk q ∧ noAdjacentOverflow q.entries = true

theorem newestIsOverflow_cons_cons (a b : Event) (es : List Event) :
    newestIsOverflow (a :: b :: es) = newestIsOverflow (b :: es) := by
  simp [newestIsOverflow, List.getLast?_cons_cons]

/-- A new entry stands beside the newest one alone. -/
theorem noAdjacentOverflow_concat (es : List Event) (e : Event) :
    noAdjacentOverflow (es ++ [e])
      = (noAdjacentOverflow es && !(newestIsOverflow es && decide (e.kind = .overflow))) := by
  induction es with
  | nil => rfl
  | cons a es ih =>
    cases es with
    | nil => simp [noAdjacentOverflow, newestIsOverflow]
    | cons b es =>
      rw [List.cons_append] at ih
      rw [List.cons_append, List.cons_append, noAdjacentOverflow, ih, newestIsOverflow_cons_cons,
        noAdjacentOverflow, Bool.and_assoc]

theorem noAdjacentOverflow_tail {e : Event} {es : List Event}
    (h : noAdjacentOverflow (e :: es) = true) : noAdjacentOverflow es = true := by
  cases es with
  | nil => rfl
  | cons f es => exact (Bool.and_eq_true_iff.mp h).2

/-- A raised OVERFLOW entry stands as it stood. -/
theorem raised_right (es : List Event) :
    newestIsOverflow (mapNewest Event.raise es) = newestIsOverflow es
      ∧ noAdjacentOverflow (mapNewest Event.raise es) = noAdjacentOverflow es := by
  obtain rfl | ⟨older, e, rfl⟩ := es.eq_nil_or_concat
  · exact ⟨rfl, rfl⟩
  · simp [noAdjacentOverflow_concat]

/-- A post of any event but OVERFLOW keeps the queue right (R163). -/
theorem post_right {q : EventQueue} (now : Stamp) {e : Event} (he : e.kind ≠ .overflow)
    (h : queueRight q) : queueRight (q.post now e) := by
  obtain ⟨⟨hlen, hfull, _, hthresh⟩, hadj⟩ := h
  have timer (h : (q.post now e).entries = []) :
      (q.post now e).expired = false ∧ (q.post now e).timer = none :=
    absurd h (postEntries_ne_nil _ _)
  suffices (postEntries q.entries e).length ≤ 32
      ∧ ((postEntries q.entries e).length = 32 → newestIsOverflow (postEntries q.entries e) = true)
      ∧ noAdjacentOverflow (postEntries q.entries e) = true from
    ⟨⟨this.1, this.2.1, timer, hthresh⟩, this.2.2⟩
  obtain ⟨hl, k⟩ | ⟨_, hn, k⟩ | ⟨hl, hn, k⟩ | ⟨hl, hn, _⟩ := postEntries_cases q.entries e
  · rw [k, noAdjacentOverflow_concat, hadj, List.length_append, List.length_singleton]
    exact ⟨by omega, by omega, by simp [he]⟩
  · obtain ⟨newest, adjacent⟩ := raised_right q.entries
    rw [k, newest, adjacent, mapNewest_length]
    exact ⟨hlen, fun _ => hn, hadj⟩
  · rw [k, noAdjacentOverflow_concat, hadj, hn, List.length_append, List.length_singleton, hl]
    exact ⟨le_refl _, fun _ => by simp [Event.overflowOne], rfl⟩
  · exact absurd (hfull (by omega)) (by simp [hn])

/-- A removal keeps the queue right (R167). -/
theorem pop_right {q : EventQueue} (now : Stamp) (h : queueRight q) : queueRight (q.pop now) := by
  obtain ⟨⟨hlen, hfull, hempty, hthresh⟩, hadj⟩ := h
  obtain ⟨_, k⟩ | ⟨e, _, k⟩ | ⟨e, f, rest, he, k⟩ := q.pop_cases now <;> rw [k]
  · exact ⟨⟨hlen, hfull, hempty, hthresh⟩, hadj⟩
  · exact ⟨⟨by simp, by simp, fun _ => ⟨rfl, rfl⟩, hthresh⟩, rfl⟩
  · rw [he] at hlen hadj
    rw [List.length_cons] at hlen
    exact ⟨⟨by dsimp only; omega, fun (h : (f :: rest).length = 32) => by omega,
      fun h => (nomatch h), hthresh⟩, noAdjacentOverflow_tail hadj⟩

/-- A run of posts keeps the queue right. -/
theorem posts_right (now : Stamp) (n : LaneId) {ps : List Post} (hp : noOverflow ps)
    {q : EventQueue} (h : queueRight q) :
    queueRight (ps.foldl (fun q p => q.post now ⟨p.1, some n, p.2⟩) q) :=
  foldl_post_keeps queueRight now n ps (fun _ hq p hm => post_right now (hp p hm) hq) q h

/-- The holdoff timer that expires runs over a queue that is not empty (R171). -/
theorem expiry_right {q : EventQueue} {now : Stamp} (due : q.holdoffDue now = true)
    (h : queueRight q) : queueRight { q with expired := true, timer := none } := by
  obtain ⟨⟨hlen, hfull, hempty, hthresh⟩, hadj⟩ := h
  refine ⟨⟨hlen, hfull, fun he => absurd due ?_, hthresh⟩, hadj⟩
  obtain ⟨_, stopped⟩ := hempty he
  simp [EventQueue.holdoffDue, stopped]

/-! ## The meter pool (R71) -/

/-- The pool is right: who claims a unit measures, and no lane claims two. -/
theorem poolOk_iff (s : State) : poolOk s ↔
    (∀ u n, (s.meters.get u).claim = some n → (s.lane n).runs .meter)
    ∧ ∀ u v n, (s.meters.get u).claim = some n → (s.meters.get v).claim = some n → u = v := by
  refine and_congr_right fun _ => ⟨fun one u v n hu hv => ?_, fun one n both => ?_⟩
  · fin_cases u <;> fin_cases v
    · rfl
    · exact absurd ⟨hu, hv⟩ (one n)
    · exact absurd ⟨hv, hu⟩ (one n)
    · rfl
  · exact absurd (one 0 1 n both.1 both.2) (by decide)

/-- The pool stays right where every claim was there before and its lane goes on measuring. -/
theorem poolOk_of_claims {s t : State} (h : poolOk s)
    (claims : ∀ u n, (t.meters.get u).claim = some n →
      (s.meters.get u).claim = some n ∧ ((s.lane n).runs .meter → (t.lane n).runs .meter)) :
    poolOk t := by
  rw [poolOk_iff] at h ⊢
  obtain ⟨work, one⟩ := h
  refine ⟨fun u n hu => ?_, fun u v n hu hv => one u v n (claims u n hu).1 (claims v n hv).1⟩
  obtain ⟨before, still⟩ := claims u n hu
  exact still (work u n before)

/-! ## What a step keeps -/

/-- What a step keeps of the profile table, the meter pool and the event queue. -/
structure StepRight (s t : State) : Prop where
  table : (∀ i, profileOk (s.table.get i)) → ∀ i, profileOk (t.table.get i)
  pool : poolOk s → poolOk t
  queue : queueRight s.queue → queueRight t.queue

theorem StepRight.refl (s : State) : StepRight s s := ⟨id, id, id⟩

theorem StepRight.after {s t u : State} (g : StepRight t u) (h : StepRight s t) : StepRight s u :=
  ⟨g.table ∘ h.table, g.pool ∘ h.pool, g.queue ∘ h.queue⟩

/-- A step of the lanes that leaves the table, the pool and the queue. -/
theorem right_of_lanes {s t : State} (ht : t.table = s.table) (hm : t.meters = s.meters)
    (hq : t.queue = s.queue) (hl : ∀ n, stillMeters (s.lane n) (t.lane n)) : StepRight s t :=
  ⟨ht ▸ id, fun h => poolOk_of_claims h fun _ n hu => ⟨hm ▸ hu, hl n⟩, hq ▸ id⟩

/-- A step that leaves the lanes too. -/
theorem right_of_eq {s t : State} (ht : t.table = s.table) (hm : t.meters = s.meters)
    (hq : t.queue = s.queue) (hl : t.lanes = s.lanes) : StepRight s t :=
  right_of_lanes ht hm hq fun n => by
    rw [stillMeters, State.lane, State.lane, hl]
    exact id

/-- A change of none of them after a step. -/
theorem StepRight.andSame {s t u : State} (h : StepRight s t) (ht : u.table = t.table)
    (hm : u.meters = t.meters) (hq : u.queue = t.queue) (hl : u.lanes = t.lanes) : StepRight s u :=
  (right_of_eq ht hm hq hl).after h

/-- A step of the queue alone. -/
theorem right_of_queue {s t : State} (ht : t.table = s.table) (hm : t.meters = s.meters)
    (hl : t.lanes = s.lanes) (hq : queueRight s.queue → queueRight t.queue) : StepRight s t := by
  obtain ⟨table, pool, _⟩ : StepRight s { t with queue := s.queue } := right_of_eq ht hm rfl hl
  exact ⟨table, pool, hq⟩

theorem post_event_right (s : State) {e : Event} (he : e.kind ≠ .overflow) :
    StepRight s (s.post e) :=
  right_of_queue rfl rfl rfl (post_right s.time.count he)

theorem postAll_right (s : State) (n : LaneId) {ps : List Post} (hp : noOverflow ps) :
    StepRight s (s.postAll n ps) :=
  right_of_queue (by simp) (by simp) (by simp) fun h => by
    rw [State.postAll_queue]
    exact posts_right s.time.count n hp h

theorem setLane_right (s : State) (n : LaneId) {l : Lane} (h : stillMeters (s.lane n) l) :
    StepRight s (s.setLane n l) :=
  right_of_lanes rfl rfl rfl fun m => by
    rw [State.lane_setLane]
    split
    · next hm => exact hm ▸ h
    · exact id

theorem putLane_right (s : State) (n : LaneId) {o : LaneOut} (h : stillMeters (s.lane n) o.lane)
    (hp : noOverflow o.posts) : StepRight s (s.putLane n o) :=
  (postAll_right _ n hp).after (setLane_right s n h)

/-- A step of the meter lane that holds unit `u`, from the lane `l` it has become. -/
theorem putMeter_right (s : State) (n : LaneId) {u : UnitId} {l : Lane} {o : MeterOut}
    (held : s.meters.heldBy n = some u) (h : stillMeters (s.lane n) l)
    (step : MeterStep l (s.meters.get u) o) : StepRight s (s.putMeter n u o) := by
  have mine := MeterPool.heldBy_some _ _ _ held
  refine (postAll_right _ n step.posts).after ⟨id, fun ok => ?_, id⟩
  obtain ⟨work, one⟩ := (poolOk_iff s).mp ok
  refine poolOk_of_claims ok fun v m hv => ?_
  by_cases hu : v = u
  · subst hu
    rw [State.setLane_meters, MeterPool.get_set_self] at hv
    obtain free | ⟨same, runs⟩ := step.claim (h (work v n mine))
    · rw [free] at hv
      cases hv
    · rw [same, mine] at hv
      cases hv
      exact ⟨mine, fun _ => by simpa using runs⟩
  · rw [State.setLane_meters, MeterPool.get_set_ne _ _ hu] at hv
    have hm : m ≠ n := by
      rintro rfl
      exact hu (one v u m hv mine)
    exact ⟨hv, fun hr => by simpa [hm] using hr⟩

/-- A lane whose unit has come free may become anything (R72). -/
theorem release_right {s t : State} {n : LaneId} {l : Lane} (ht : t.table = s.table)
    (hm : t.meters = s.meters.release n) (hl : t.lanes = s.lanes.set n l) (hq : t.queue = s.queue) :
    StepRight s t := by
  refine ⟨ht ▸ id, fun ok => poolOk_of_claims ok fun u m hu => ?_, hq ▸ id⟩
  rw [hm, MeterPool.get_release] at hu
  split at hu
  · cases hu
  · next free =>
    have hne : m ≠ n := by
      rintro rfl
      exact free hu
    rw [State.lane, State.lane, hl, Eight.get_set, if_neg hne]
    exact ⟨hu, id⟩

/-- One function of each lane that leaves a measuring lane measuring, on all eight. -/
theorem mapIdx_right {s t : State} (f : LaneId → Lane → Lane) (ht : t.table = s.table)
    (hm : t.meters = s.meters) (hq : t.queue = s.queue) (hl : t.lanes = s.lanes.mapIdx f)
    (h : ∀ n l, stillMeters l (f n l)) : StepRight s t :=
  right_of_lanes ht hm hq fun n => by
    rw [stillMeters, State.lane, State.lane, hl, Eight.get_mapIdx]
    exact h n _

theorem raiseRequest_right {s t : State} (h : StepRight s t) : StepRight s t.raiseRequest :=
  h.andSame (by simp) (by simp) (by simp) (by simp)

theorem hostWrite_right (s : State) {f : State → State} (h : StepRight s (f s)) :
    StepRight s (s.hostWrite f) := by
  obtain ⟨_, k⟩ | ⟨_, k⟩ := s.hostWrite_cases f <;> rw [k]
  · exact .refl s
  · exact h

/-! ## The front end -/

theorem not_meter_of_mode {m k : LMode} (h : m = k) (hk : k ≠ .meter) : m ≠ .meter := h ▸ hk

theorem acceptEdge_right (s : State) (n : LaneId) (c : Change) : StepRight s (s.acceptEdge n c) := by
  unfold State.acceptEdge
  dsimp only
  split
  · split
    · next hm =>
      have hm : (s.lane n).regs.lmode = .capture := hm
      exact putLane_right _ _ (stillMeters_of_mode (not_meter_of_mode hm (by decide)))
        (Lane.captureEdge_posts _ _ _ _ _)
    · split
      · next u hu =>
        exact putMeter_right (l := (s.lane n).acceptChange c) _ _ hu id
          (Lane.meterEdge_meterStep _ _ _ _ _ _)
      · exact setLane_right _ _ id
    · exact setLane_right _ _ id
  · exact setLane_right _ _ id

/-! ## Lane commands -/

/-- The engine's answer to STOP on the lane `l` that the command makes of its lane (R118). -/
theorem stopEngine_right (s : State) (n : LaneId) {l : Lane} (hr : l.regs = (s.lane n).regs)
    (h : stillMeters (s.lane n) l) : StepRight s (s.stopEngine n l) := by
  unfold State.stopEngine
  rw [hr]
  split
  · next hm =>
    exact putLane_right _ _ (stillMeters_of_mode (not_meter_of_mode hm (by decide)))
      (Lane.finishCapture_posts _)
  · split
    · next u hu => exact putMeter_right _ _ hu h (Lane.stopMeter_meterStep _ _)
    · exact setLane_right _ _ h
  · next hm =>
    exact putLane_right _ _ (stillMeters_of_mode (not_meter_of_mode hm (by decide)))
      (Lane.stopReplay_posts _)
  · exact setLane_right _ _ h

theorem abortEngine_right (s : State) (n : LaneId) {l : Lane} (hr : l.regs = (s.lane n).regs)
    (h : stillMeters (s.lane n) l) : StepRight s (s.abortEngine n l) := by
  unfold State.abortEngine
  rw [hr]
  split
  · next hm =>
    exact putLane_right _ _ (stillMeters_of_mode (not_meter_of_mode hm (by decide)))
      (Lane.finishCapture_posts _)
  · split
    · next u hu => exact putMeter_right _ _ hu h (Lane.abortMeter_meterStep _ _ _ _)
    · exact setLane_right _ _ h
  · next hm =>
    exact putLane_right _ _ (stillMeters_of_mode (not_meter_of_mode hm (by decide)))
      (Lane.abortReplay_posts _)
  · exact setLane_right _ _ h

/-- A lane that is not at work claims the free unit as it begins to measure (R71, R117). -/
theorem claim_right {s t : State} {n : LaneId} {u : UnitId} {m : MeterUnit} {l : Lane}
    (idle : (s.lane n).life.active = false) (claim : m.claim = some n) (runs : l.runs .meter)
    (ht : t.table = s.table) (hm : t.meters = s.meters.set u m) (hl : t.lanes = s.lanes.set n l)
    (hq : t.queue = s.queue) : StepRight s t := by
  refine ⟨ht ▸ id, fun ok => ?_, hq ▸ id⟩
  rw [poolOk_iff] at ok ⊢
  obtain ⟨work, one⟩ := ok
  have unclaimed (v : UnitId) : (s.meters.get v).claim ≠ some n := fun h =>
    absurd (work v n h).2 (by simp [idle])
  have lane (k : LaneId) : t.lane k = if k = n then l else s.lane k := by
    rw [State.lane, State.lane, hl, Eight.get_set]
  have claims (v : UnitId) (k : LaneId) (h : (t.meters.get v).claim = some k) :
      (v = u ∧ k = n) ∨ (v ≠ u ∧ k ≠ n ∧ (s.meters.get v).claim = some k) := by
    rw [hm] at h
    by_cases hv : v = u
    · subst hv
      rw [MeterPool.get_set_self, claim] at h
      exact .inl ⟨rfl, (Option.some.inj h).symm⟩
    · rw [MeterPool.get_set_ne _ _ hv] at h
      exact .inr ⟨hv, fun hk => unclaimed v (hk ▸ h), h⟩
  refine ⟨fun v k h => ?_, fun v w k hv hw => ?_⟩
  · rw [lane]
    obtain ⟨_, hk⟩ | ⟨_, hk, before⟩ := claims v k h
    · rwa [if_pos hk]
    · rw [if_neg hk]
      exact work v k before
  · obtain ⟨hvu, hk⟩ | ⟨_, hk, hv⟩ := claims v k hv <;>
      obtain ⟨hwu, hk'⟩ | ⟨_, hk', hw⟩ := claims w k hw
    · exact hvu.trans hwu.symm
    · exact absurd hk hk'
    · exact absurd hk' hk
    · exact one v w k hv hw

theorem beginEngine_right (s : State) (n : LaneId) {l : Lane}
    (idle : (s.lane n).life.active = false) (run : l.life.active = true) :
    StepRight s (s.beginEngine n l) := by
  unfold State.beginEngine
  split
  · exact setLane_right _ _ (stillMeters_of_idle idle)
  · next hm =>
    split
    · refine claim_right idle rfl ?_ rfl rfl rfl rfl
      exact l.requestFetch_step.stillMeters l.requestFetch_life ⟨hm, run⟩
    · exact .refl s
  · exact putLane_right _ _ (stillMeters_of_idle idle)
      (by simp [LaneOut.next, Lane.startReplay, Lane.seekSpare_posts])
  · exact .refl s

/-- START is accepted on a STOPPED lane alone (R116). -/
theorem startVerdict_stopped (s : State) (n : LaneId) (h : s.startVerdict n = .accepted) :
    (s.lane n).life = .stopped := by
  by_contra hl
  simp [State.startVerdict, hl] at h

theorem startLane_right (s : State) (n : LaneId) : StepRight s (s.startLane n) := by
  unfold State.startLane
  dsimp only
  split
  · next hv =>
    have idle : (s.lane n).life.active = false := by rw [startVerdict_stopped s n hv]; rfl
    exact raiseRequest_right (beginEngine_right _ _ idle rfl)
  · exact setLane_right _ _ id

theorem stopLane_right (s : State) (n : LaneId) : StepRight s (s.stopLane n) := by
  unfold State.stopLane
  dsimp only
  split
  · exact raiseRequest_right (stopEngine_right _ _ rfl fun hr => ⟨hr.1, rfl⟩)
  · exact setLane_right _ _ id
  · exact putLane_right _ _ id (by simp)
  · exact setLane_right _ _ id
  · exact setLane_right _ _ id

theorem abortLane_right (s : State) (n : LaneId) : StepRight s (s.abortLane n) := by
  have flushed {a : Bool} (h : (s.lane n).life = .flushing a) :
      (s.lane n).life.active = false := by rw [h]; rfl
  unfold State.abortLane
  dsimp only
  split
  · exact raiseRequest_right (abortEngine_right _ _ rfl fun hr => ⟨hr.1, rfl⟩)
  · exact raiseRequest_right (abortEngine_right _ _ rfl fun hr => ⟨hr.1, rfl⟩)
  · exact setLane_right _ _ id
  · exact setLane_right _ _ id
  · next h =>
    exact raiseRequest_right
      (putLane_right _ _ (stillMeters_of_idle (flushed h)) (Lane.abortFlush_posts _))
  · exact setLane_right _ _ id

/-- FLUSH is taken on a STOPPED lane alone (R122). -/
theorem flush_right (s : State) (n : LaneId) :
    StepRight s (s.putLane n (s.lane n).flush).raiseRequest := by
  refine raiseRequest_right (putLane_right _ _ ?_ (Lane.flush_posts _))
  by_cases hl : (s.lane n).life = .stopped
  · exact stillMeters_of_idle (by rw [hl]; rfl)
  · rw [Lane.flush, if_pos hl]
    exact id

theorem recover_right (s : State) (n : LaneId) : StepRight s (s.setLane n (s.lane n).recover) := by
  refine setLane_right _ _ ?_
  unfold Lane.recover
  split
  · next h => exact stillMeters_of_idle (by rw [h]; rfl)
  · exact id

theorem resetLane_right (s : State) (n : LaneId) (r : LResult) : StepRight s (s.resetLane n r) :=
  release_right rfl rfl rfl rfl

theorem laneCommand_right (s : State) (n : LaneId) (code : BitVec 4) (arg : BitVec 12) :
    StepRight s (s.laneCommand n code arg) := by
  unfold State.laneCommand
  split
  · exact startLane_right _ _
  · split
    · exact stopLane_right _ _
    · split
      · exact abortLane_right _ _
      · split
        · exact setLane_right _ _ (Lane.skip_stillMeters _ _)
        · split
          · exact flush_right _ _
          · split
            · exact recover_right _ _
            · split
              · exact resetLane_right _ _ _
              · exact setLane_right _ _ id

/-! ## Registers of a lane's block -/

/-- A register under the lock is written on a STOPPED lane alone (R125). -/
theorem lockedWrite_right (s : State) (n : LaneId) (f : Lane → Lane) :
    StepRight s (s.lockedWrite n f) := by
  unfold State.lockedWrite
  dsimp only
  split
  · next h => exact setLane_right _ _ (stillMeters_of_idle (by rw [h]; rfl))
  · exact setLane_right _ _ id

theorem ringWrite_right (s : State) (n : LaneId) (f : Ring → Ring) :
    StepRight s (s.ringWrite n f) := by
  unfold State.ringWrite
  dsimp only
  split <;> exact setLane_right _ _ id

theorem writePostedReg_right (s : State) (n : LaneId) (w : Word) :
    StepRight s (s.writePostedReg n w) :=
  raiseRequest_right (putLane_right _ _ (Lane.writePosted_stillMeters _ _) (Lane.writePosted_posts _ _))

theorem writeLaneReg_right (s : State) (n : LaneId) (r : Nat) (w : Word) :
    StepRight s (s.writeLaneReg n r w) := by
  unfold State.writeLaneReg
  split
  all_goals first
    | exact lockedWrite_right _ _ _
    | exact ringWrite_right _ _ _
    | exact writePostedReg_right _ _ _
    | exact laneCommand_right _ _ _ _
    | exact .refl s

/-! ## The bus and the resets -/

theorem faultLane_right (s : State) (n : LaneId) (c : FaultCause) :
    StepRight s (s.faultLane n c) :=
  (post_event_right _ (by simp)).after
    (release_right (s := s) (t := { s with meters := s.meters.release n }.setLane n _) rfl rfl rfl rfl)

theorem grant_right (s : State) : StepRight s s.grant := by
  obtain ⟨_, h⟩ | ⟨_, _, h⟩ | ⟨n, _, _, _, h⟩ | ⟨n, q, _, _, _, h⟩ := grant_cases s <;> rw [h]
  · exact .refl s
  · exact right_of_eq rfl rfl rfl rfl
  · exact right_of_eq rfl rfl rfl rfl
  · refine StepRight.after (right_of_eq rfl rfl rfl rfl)
      (t := if q.purpose = .fetch then s.setLane n { s.lane n with
        ring := (s.lane n).ring.grantFetch } else s) ?_
    split
    · exact setLane_right _ _ id
    · exact .refl s

theorem fetchDone_right (s : State) (n : LaneId) : StepRight s (s.fetchDone n) := by
  unfold State.fetchDone
  dsimp only
  split
  · exact .refl s
  · next d hd =>
    split
    · have step := (Lane.takeSpare_step _).after (Lane.takeFetched_step (s.lane n) d d hd)
      exact setLane_right _ _
        (step.stillMeters ((Lane.takeSpare_life _).trans (Lane.takeFetched_life _ _)))
    · exact faultLane_right _ _ _

theorem writeBackDone_right (s : State) (n : LaneId) (forRing : Bool) :
    StepRight s (s.writeBackDone n forRing) := by
  unfold State.writeBackDone
  dsimp only
  split
  · exact putLane_right _ _ (Lane.returnDone_stillMeters _) (Lane.returnDone_posts _)
  · split
    · next hm =>
      exact putLane_right _ _ (stillMeters_of_mode (not_meter_of_mode hm (by decide)))
        (Lane.recordDone_posts _)
    · split
      · next u hu => exact putMeter_right _ _ hu id (Lane.resultDone_meterStep _ _)
      · exact .refl s
    · next hm =>
      exact putLane_right _ _ (stillMeters_of_mode (not_meter_of_mode hm (by decide)))
        (Lane.replayDone_posts _)
    · exact .refl s

theorem burstDone_right (s : State) (b : Burst) : StepRight s (s.burstDone b) := by
  unfold State.burstDone
  dsimp only
  split
  · exact fetchDone_right _ _
  · exact setLane_right _ _ ((Lane.mapOldest_step _ _).stillMeters (Lane.mapOldest_life _ _))
  · exact setLane_right _ _ ((Lane.headerDone_step _).stillMeters (Lane.headerDone_life _))
  · exact writeBackDone_right _ _ _
  · exact setLane_right _ _ ((Lane.loadDone_step _ _).stillMeters (Lane.loadDone_life _ _))
  · exact .refl s
  · exact .refl s

/-- A reset frees both units and empties the queue (R72, R173). -/
theorem reset_right {s t : State} (hm : t.meters = .free) (hq : t.queue = .reset)
    (table : (∀ i, profileOk (s.table.get i)) → ∀ i, profileOk (t.table.get i)) :
    StepRight s t := by
  have free (u : UnitId) : (MeterPool.free.get u).claim = none := by fin_cases u <;> rfl
  refine ⟨table, fun ok => poolOk_of_claims ok fun u n hu => ?_, fun _ => ?_⟩
  · rw [hm, free] at hu
    cases hu
  · rw [hq]
    decide

theorem completeSoftReset_right (s : State) : StepRight s s.completeSoftReset :=
  reset_right rfl rfl id

theorem deviceReset_right (s : State) : StepRight s s.deviceReset :=
  reset_right rfl rfl fun _ i => by
    rw [show s.deviceReset.table = .fill .empty from rfl, Eight.get_fill]
    rfl

theorem softReset_right (s : State) : StepRight s s.softReset := by
  unfold State.softReset
  split
  · exact right_of_eq rfl rfl rfl rfl
  · exact completeSoftReset_right s

/-- A word handed to its lane (R154). -/
theorem takeWord_right (s : State) (b : Burst) (data : Word) :
    StepRight s (s.setLane b.lane ((s.lane b.lane).takeWord b.purpose data)) :=
  setLane_right _ _ ((Lane.takeWord_step _ _ _).stillMeters (Lane.takeWord_life _ _ _))

theorem acknowledge_right (s : State) (data : Word) : StepRight s (s.acknowledge data) := by
  obtain ⟨_, h⟩ | ⟨b, _, ⟨_, h⟩ | ⟨_, _, h⟩ | ⟨_, _, _, h⟩ | ⟨_, _, _, h⟩⟩ :=
    acknowledge_cases s data <;> rw [h]
  · exact .refl s
  · exact completeSoftReset_right s
  · exact raiseRequest_right (right_of_eq rfl rfl rfl rfl)
  · exact raiseRequest_right
      ((burstDone_right _ _).after ((takeWord_right s b data).andSame rfl rfl rfl rfl))
  · exact (takeWord_right s b data).andSame rfl rfl rfl rfl

theorem failCycle_right (s : State) (e : Bool) : StepRight s (s.failCycle e) := by
  obtain ⟨_, h⟩ | ⟨b, _, ⟨_, h⟩ | ⟨_, s1, rfl, ⟨_, h⟩ | ⟨_, h⟩⟩⟩ := failCycle_cases s e <;> rw [h]
  · exact .refl s
  · exact completeSoftReset_right s
  · exact raiseRequest_right (right_of_eq rfl rfl rfl rfl)
  · exact raiseRequest_right ((faultLane_right _ _ _).after (right_of_eq rfl rfl rfl rfl))

/-! ## Device control and the profile table -/

/-- The work bound to a profile stops, whatever becomes of the entry (R67, R68). -/
theorem profileChanged_right (s : State) (ix : ProfileIx) : StepRight s (s.profileChanged ix) :=
  mapIdx_right _ rfl rfl rfl rfl fun _ l =>
    ((Lane.profileChanged_step _ _).after (l.killMatcher_step ix)).stillMeters
      ((Lane.profileChanged_life _ _).trans (l.killMatcher_life ix))

/-- An entry that is right changes the table to a right one. -/
theorem tableChanged_right (s : State) (ix : ProfileIx) {p : Profile} (hp : profileOk p) :
    StepRight s (tableChanged s ix p) := by
  refine raiseRequest_right ((profileChanged_right _ ix).after ⟨fun h i => ?_, id, id⟩)
  rw [Eight.get_set]
  split
  · exact hp
  · exact h i

theorem commitProfile_right (s : State) (ix : ProfileIx) : StepRight s (s.commitProfile ix) := by
  obtain ⟨ok, h⟩ | ⟨_, h⟩ := commitProfile_cases s ix <;> rw [h]
  · exact tableChanged_right s ix ok
  · exact right_of_eq rfl rfl rfl rfl

theorem clearProfile_right (s : State) (ix : ProfileIx) : StepRight s (s.clearProfile ix) :=
  tableChanged_right s ix (p := .empty) rfl

theorem profileCommand_right (s : State) (code : BitVec 4) (ix : ProfileIx) :
    StepRight s (s.profileCommand code ix) := by
  unfold State.profileCommand
  split
  · exact commitProfile_right _ _
  · split
    · exact clearProfile_right _ _
    · split <;> exact right_of_eq rfl rfl rfl rfl

theorem tick_right (s : State) : StepRight s s.tick :=
  mapIdx_right (fun _ l => l.tick) rfl rfl rfl rfl fun _ _ => id

theorem writeControl_right (s : State) (w : Word) : StepRight s (s.writeControl w) := by
  unfold State.writeControl
  split
  · exact right_of_eq rfl rfl rfl rfl
  · split
    · exact right_of_eq rfl rfl rfl rfl
    · split <;> exact right_of_eq rfl rfl rfl rfl

theorem writePresc_right (s : State) (w : Word) : StepRight s (s.writePresc w) := by
  unfold State.writePresc
  split <;> exact right_of_eq rfl rfl rfl rfl

theorem writeResplim_right (s : State) (w : Word) : StepRight s (s.writeResplim w) := by
  unfold State.writeResplim
  split <;> exact right_of_eq rfl rfl rfl rfl

/-- A taken ITHRESH lies between 1 and 32 (R170). -/
theorem writeIrqctl_right (s : State) (w : Word) : StepRight s (s.writeIrqctl w) := by
  unfold State.writeIrqctl
  split
  · exact right_of_eq rfl rfl rfl rfl
  · next h =>
    obtain ⟨hzero, hmax⟩ := not_or.mp h
    refine right_of_queue rfl rfl rfl fun ⟨⟨hlen, hfull, hempty, _⟩, hadj⟩ =>
      ⟨⟨hlen, hfull, hempty, Nat.pos_of_ne_zero fun k => hzero ?_, Nat.le_of_not_lt hmax⟩, hadj⟩
    exact BitVec.eq_of_toNat_eq (by simpa using k)

/-- A write to IRQHOLD starts no timer over an empty queue (R171). -/
theorem writeIrqhold_right (s : State) (w : Word) : StepRight s (s.writeIrqhold w) := by
  refine right_of_queue rfl rfl rfl fun ⟨⟨hlen, hfull, hempty, hthresh⟩, hadj⟩ =>
    ⟨⟨hlen, hfull, fun he => ?_, hthresh⟩, hadj⟩
  have he : s.queue.entries = [] := he
  obtain ⟨hexpired, htimer⟩ := hempty he
  refine ⟨hexpired, ?_⟩
  simp [State.writeIrqhold, he, htimer]

theorem popEvent_right (s : State) : StepRight s s.popEvent :=
  right_of_queue rfl rfl rfl (pop_right s.time.count)

theorem note_right (s : State) : StepRight s s.note :=
  (post_event_right _ (by simp)).after (right_of_eq rfl rfl rfl rfl)

theorem globalCommand_right (s : State) (code : BitVec 4) : StepRight s (s.globalCommand code) := by
  unfold State.globalCommand
  split
  · exact right_of_eq rfl rfl rfl rfl
  · split
    · exact note_right s
    · split
      · exact softReset_right s
      · exact right_of_eq rfl rfl rfl rfl

theorem writeGlobalReg_right (s : State) (o : Nat) (w : Word) :
    StepRight s (s.writeGlobalReg o w) := by
  unfold State.writeGlobalReg
  split
  all_goals first
    | exact writeControl_right _ _
    | exact writePresc_right _ _
    | exact writeResplim_right _ _
    | exact globalCommand_right _ _
    | exact popEvent_right _
    | exact writeIrqctl_right _ _
    | exact writeIrqhold_right _ _
    | exact profileCommand_right _ _ _
    | exact right_of_eq rfl rfl rfl rfl

theorem writeWindow_right (s : State) (offset : BitVec 10) (w : Word) :
    StepRight s (s.writeWindow offset w) := by
  unfold State.writeWindow
  dsimp only
  split
  · exact writeGlobalReg_right _ _ _
  · split
    · exact right_of_eq rfl rfl rfl rfl
    · split
      · exact writeLaneReg_right _ _ _ _
      · exact .refl s

/-! ## Every command -/

/-- A report that is taken where it is due, and changes nothing elsewhere (log 1). -/
theorem right_of_due {due : Prop} [Decidable due] {s t u : State}
    (h : (if due then .next u else .next s : Host.Outcome State Fault Refusal) = .next t)
    (hu : due → StepRight s u) : StepRight s t := by
  split at h <;> cases h
  · next hd => exact hu hd
  · exact .refl s

/-- A lane with an open frame does not measure. -/
theorem not_meter_of_openFrame {l : Lane} {f : Frame} (h : l.openFrame = some f) :
    l.regs.lmode ≠ .meter := by
  obtain ⟨⟨hm, _⟩, _⟩ := (openFrame_eq_some l f).mp h
  exact not_meter_of_mode hm (by decide)

/-- Every command keeps the profile table, the meter pool and the event queue right. -/
theorem exec_right (c : Instr) (s t : State) (h : exec c s = .next t) : StepRight s t := by
  cases c with
  | transition n =>
    cases h
    exact raiseRequest_right
      (putLane_right _ _ (Lane.seeTransition_stillMeters _ _ _) (Lane.seeTransition_posts _ _ _))
  | edgeAccepted n =>
    simp only [exec, execEdgeAccepted] at h
    split at h
    · exact right_of_due h fun _ => raiseRequest_right (acceptEdge_right _ _ _)
    · cases h; exact .refl s
  | waitPointReached n =>
    refine right_of_due h fun due => setLane_right _ _ (stillMeters_of_mode ?_)
    obtain ⟨⟨hm, _⟩, _⟩ := of_decide_eq_true due
    exact not_meter_of_mode hm (by decide)
  | gapPointReached n =>
    simp only [exec, execGapPointReached] at h
    split at h
    · next hf =>
      exact right_of_due h fun _ => raiseRequest_right (putLane_right _ _
        (stillMeters_of_mode (not_meter_of_openFrame hf)) (Lane.reachFramePoint_posts _ _ _))
    · cases h; exact .refl s
  | markPointReached n =>
    simp only [exec, execMarkPointReached] at h
    split at h
    · next hf =>
      exact right_of_due h fun _ => raiseRequest_right (putLane_right _ _
        (stillMeters_of_mode (not_meter_of_openFrame hf)) (Lane.reachFramePoint_posts _ _ _))
    · cases h; exact .refl s
  | tlimitExpiry n =>
    simp only [exec, execTlimitExpiry] at h
    split at h
    · next hf =>
      exact right_of_due h fun _ => raiseRequest_right (putLane_right _ _
        (stillMeters_of_mode (not_meter_of_openFrame hf)) (Lane.finishCapture_posts _))
    · cases h; exact .refl s
  | mtimeoutExpiry n =>
    simp only [exec, execMtimeoutExpiry] at h
    split at h <;> cases h
    · next u hu =>
      obtain ⟨_, held, _⟩ := (timedOutUnit_eq_some s n u).mp hu
      exact raiseRequest_right
        (putMeter_right _ _ held id (Lane.endMeasurement_meterStep _ _ _ _ _ _))
    · exact .refl s
  | firstIntervalBegin n =>
    simp only [exec, execFirstIntervalBegin] at h
    split at h
    · exact right_of_due h fun _ => raiseRequest_right (setLane_right _ _
        ((Lane.firstInterval_step _ _ _).stillMeters (Lane.firstInterval_life _ _ _)))
    · cases h; exact .refl s
  | intervalEnd n =>
    simp only [exec, execIntervalEnd] at h
    split at h
    · exact right_of_due h fun _ => raiseRequest_right (setLane_right _ _
        ((Lane.endPlaying_step _ _ _).stillMeters (Lane.endPlaying_life _ _ _)))
    · cases h; exact .refl s
  | trailingGapEnd n =>
    simp only [exec, execTrailingGapEnd] at h
    split at h
    · exact right_of_due h fun _ => raiseRequest_right (setLane_right _ _
        ((Lane.endTrail_step _ _ _).stillMeters (Lane.endTrail_life _ _ _)))
    · cases h; exact .refl s
  | carrierPhase n =>
    simp only [exec, execCarrierPhase] at h
    split at h
    · exact right_of_due h fun _ => setLane_right _ _ id
    · cases h; exact .refl s
  | deviceReset => cases h; exact deviceReset_right s
  | baseTick =>
    exact right_of_due h fun _ => (tick_right _).after (right_of_eq rfl rfl rfl rfl)
  | holdoffExpiry =>
    exact right_of_due h fun due => right_of_queue rfl rfl rfl (expiry_right due)
  | busGrant => cases h; exact grant_right s
  | wordAck data => cases h; exact acknowledge_right s data
  | fetchComplete data =>
    simp only [exec, execFetchComplete] at h
    split at h
    · exact right_of_due h fun _ => acknowledge_right s data
    · cases h; exact .refl s
  | writeBack =>
    simp only [exec, execWriteBack] at h
    split at h
    · exact right_of_due h fun _ => acknowledge_right s 0
    · cases h; exact .refl s
  | errorReply => cases h; exact failCycle_right s true
  | noResponse => exact right_of_due h fun _ => failCycle_right s false
  | softResetComplete => exact right_of_due h fun _ => completeSoftReset_right s
  | start n a => cases h; exact hostWrite_right s (startLane_right s n)
  | stop n a => cases h; exact hostWrite_right s (stopLane_right s n)
  | abort n a => cases h; exact hostWrite_right s (abortLane_right s n)
  | skip n a => cases h; exact hostWrite_right s (setLane_right _ _ (Lane.skip_stillMeters _ _))
  | flush n a => cases h; exact hostWrite_right s (flush_right s n)
  | recover n a => cases h; exact hostWrite_right s (recover_right s n)
  | reset n a => cases h; exact hostWrite_right s (resetLane_right s n _)
  | lcmdBadCommand n code a =>
    simp only [exec, execLcmdBadCommand] at h
    split at h <;> cases h
    · exact .refl s
    · exact hostWrite_right s (setLane_right _ _ id)
  | snap => cases h; exact hostWrite_right s (right_of_eq rfl rfl rfl rfl)
  | note => cases h; exact hostWrite_right s (note_right s)
  | softReset => cases h; exact hostWrite_right s (softReset_right s)
  | gcmdUnknown code =>
    simp only [exec, execGcmdUnknown] at h
    split at h <;> cases h
    · exact .refl s
    · exact hostWrite_right s (right_of_eq rfl rfl rfl rfl)
  | commit ix => cases h; exact hostWrite_right s (commitProfile_right s ix)
  | clear ix => cases h; exact hostWrite_right s (clearProfile_right s ix)
  | load ix => cases h; exact hostWrite_right s (right_of_eq rfl rfl rfl rfl)
  | pcmdBadCommand code ix =>
    simp only [exec, execPcmdBadCommand] at h
    split at h <;> cases h
    · exact .refl s
    · exact hostWrite_right s (right_of_eq rfl rfl rfl rfl)
  | controlWrite w => cases h; exact hostWrite_right s (writeControl_right s w)
  | prescWrite w => cases h; exact hostWrite_right s (writePresc_right s w)
  | resplimWrite w => cases h; exact hostWrite_right s (writeResplim_right s w)
  | irqctlWrite w => cases h; exact hostWrite_right s (writeIrqctl_right s w)
  | irqholdWrite w => cases h; exact hostWrite_right s (writeIrqhold_right s w)
  | evqpop w => cases h; exact hostWrite_right s (popEvent_right s)
  | fclr w => cases h; exact hostWrite_right s (right_of_eq rfl rfl rfl rfl)
  | postedWrite n w => cases h; exact hostWrite_right s (writePostedReg_right s n w)
  | rbaseWrite n high w => cases h; exact hostWrite_right s (ringWrite_right s n _)
  | rsizeWrite n w => cases h; exact hostWrite_right s (ringWrite_right s n _)
  | lcfgWrite n w => cases h; exact hostWrite_right s (lockedWrite_right s n _)
  | registerWrite size offset w =>
    cases size <;> cases h
    · exact .refl s
    · exact hostWrite_right s (writeWindow_right s offset w)

theorem coreClock_right (s : State) : StepRight s s.coreClock := by
  obtain ⟨_, h⟩ | ⟨_, _, h⟩ | ⟨_, _, h⟩ := coreClock_cases s <;> rw [h]
  · exact right_of_eq rfl rfl rfl rfl
  · exact right_of_eq rfl rfl rfl rfl
  · exact (tick_right _).after (right_of_eq rfl rfl rfl rfl)

/-- Every step keeps them right: a command on some queue of waiting commands, or one core clock. -/
theorem step_right (s t : State) (h : step s = .next t) : StepRight s t := by
  obtain ⟨c, rest, h⟩ | rfl := step_cases s t h
  · exact (exec_right c _ t h).after (right_of_eq rfl rfl rfl rfl)
  · exact coreClock_right s

/-- Settles O56: what a step keeps of the table, of the pool and of the queue. -/
theorem tablePoolAndQueueStayRight : Obligations.TablePoolAndQueueStayRight :=
  ⟨keptByStep_of_next fun s t ok h => (step_right s t h).table ok,
    keptByStep_of_next fun s t ok h => (step_right s t h).pool ok,
    keptByStep_of_next fun s t ok h => (step_right s t h).queue ok⟩

end Sys2Proof.Laws
end

section
/-! SUPPORT. What a write to the staging set or to a plain configuration register of a lane stores, and how it
reads back (O11). -/

namespace Sys2Proof.Laws

open Sys2Proof.Machine Sys2Proof.Safety

/-! ## Offsets of the window (R174, R182) -/

/-- The byte offset of word `k` of the staging set (R182). -/
abbrev stagingOffset (k : Nat) : BitVec 10 := BitVec.ofNat 10 (0x080 + 2 * k)

theorem wordOffset_staging {k : Nat} (hk : k < 26) :
    wordOffset (stagingOffset k) = 0x080 + 2 * k := by
  rw [wordOffset, BitVec.toNat_ofNat]
  omega

theorem wordOffset_lane (n : LaneId) {r : Nat} (hr : r < 0x40) (even : r % 2 = 0) :
    wordOffset (laneOffset n r) = 0x100 + n.val * 0x40 + r := by
  have hn := n.isLt
  rw [wordOffset, laneOffset, BitVec.toNat_ofNat]
  omega

theorem blockLane_lane (n : LaneId) {r : Nat} (hr : r < 0x40) :
    blockLane (0x100 + n.val * 0x40 + r) = n := by
  have hn := n.isLt
  refine Fin.ext ?_
  rw [blockLane, Fin.ofNat]
  dsimp only
  omega

/-- A word write in the staging set goes to its word. -/
theorem writeWindow_staging (s : State) {k : Nat} (hk : k < 26) (w : Word) :
    s.writeWindow (stagingOffset k) w
      = { s with staging := s.staging.withStagingWord k w } := by
  have index : (0x080 + 2 * k - 0x080) / 2 = k := by omega
  rw [State.writeWindow, wordOffset_staging hk]
  rw [if_neg (by omega), if_pos (by omega), index]

theorem readWindow_staging (s : State) {k : Nat} (hk : k < 26) :
    s.readWindow (stagingOffset k) = (s.staging.words[k]?).getD 0 := by
  have index : (0x080 + 2 * k - 0x080) / 2 = k := by omega
  rw [State.readWindow, wordOffset_staging hk]
  rw [if_neg (by omega), if_pos (by omega), index]

/-- A word write in a lane's block goes to that lane's register. -/
theorem writeWindow_lane (s : State) (n : LaneId) {r : Nat} (hr : r < 0x40) (even : r % 2 = 0)
    (w : Word) : s.writeWindow (laneOffset n r) w = s.writeLaneReg n r w := by
  have hn := n.isLt
  have reg : (0x100 + n.val * 0x40 + r - 0x100) % 0x40 = r := by omega
  rw [State.writeWindow, wordOffset_lane n hr even]
  rw [if_neg (by omega), if_neg (by omega), if_pos (by omega), blockLane_lane n hr, reg]

theorem readWindow_lane (s : State) (n : LaneId) {r : Nat} (hr : r < 0x40) (even : r % 2 = 0) :
    s.readWindow (laneOffset n r) = s.readLaneReg n r := by
  have hn := n.isLt
  have reg : (0x100 + n.val * 0x40 + r - 0x100) % 0x40 = r := by omega
  rw [State.readWindow, wordOffset_lane n hr even]
  rw [if_neg (by omega), if_neg (by omega), if_pos (by omega), blockLane_lane n hr, reg]

/-! ## The staging set (R47) -/

/-- The bits of a staging word that the map names (R182). -/
abbrev stagingBits (k : Nat) : Word := if k = 0 then 0x0007 else 0xFFFF

theorem bit_eq_toNat (b : Bool) : bit b = b.toNat := by cases b <;> rfl

/-- PFLAGS reads back its three bits. -/
theorem flags_read (w : Word) :
    packFields [(0, 1, bit (w.getLsbD 0)), (1, 1, bit (w.getLsbD 1)), (2, 1, bit (w.getLsbD 2))]
      = w &&& 0x0007 := by
  refine BitVec.eq_of_getLsbD_eq fun i hi => ?_
  simp only [bit_eq_toNat, getLsbD_packFields _ _ _ _ i hi, getLsbD_packFields_nil, Nat.testBit_bool_toNat]
  interval_cases i <;> simp

/-- PBITS reads back both its bytes. -/
theorem bits_read (w : Word) :
    packFields [(0, 8, (w.extractLsb' 0 8).toNat), (8, 8, (w.extractLsb' 8 8).toNat)] = w := by
  refine BitVec.eq_of_getLsbD_eq fun i hi => ?_
  simp only [getLsbD_packFields _ _ _ _ i hi, getLsbD_packFields_nil, BitVec.testBit_toNat]
  interval_cases i <;> simp

/-- A write to a staging word stores the bits the map names and keeps every other word. -/
theorem words_withStagingWord (p : ProfileFields) {k : Nat} (hk : k < 26) (w : Word) :
    (p.withStagingWord k w).words = p.words.set k (w &&& stagingBits k) := by
  have whole : w &&& 0xFFFF = w := BitVec.and_allOnes
  obtain _ | _ | k := k
  · exact congrArg (· :: _) (flags_read w)
  · exact congrArg (_ :: · :: _) ((bits_read w).trans whole.symm)
  · rw [stagingBits, if_neg (by omega), whole]
    have : k < 24 := by omega
    interval_cases k <;> rfl

theorem words_length (p : ProfileFields) : p.words.length = 26 := rfl

/-! ## The plain configuration registers (R17, R73, R88) -/

/-- The word that the registers `g` of a lane show at offset `q` of its block, for LCFG and the plain
registers (R182). -/
def regWord (g : LaneRegs) (q : Nat) : Word :=
  match q with
  | 0x00 => g.lcfg
  | 0x02 => g.lgap
  | 0x04 => g.maxmark
  | 0x06 => g.maxiv
  | 0x08 => g.tlimit
  | 0x0A => g.pmask.zeroExtend 16
  | 0x0C => g.lmcfg
  | 0x0E => g.mcount
  | 0x10 => g.mtimeout
  | 0x12 => g.cper
  | 0x14 => g.chigh
  | _ => 0

theorem mem_plainLaneRegs {r : Nat} (h : r ∈ plainLaneRegs) : r < 0x40 ∧ r % 2 = 0 := by
  revert r
  decide

theorem readLaneReg_eq (s : State) (n : LaneId) {q : Nat} (h : q ∈ 0 :: plainLaneRegs) :
    s.readLaneReg n q = regWord (s.lane n).regs q := by
  simp only [plainLaneRegs, List.mem_cons, List.not_mem_nil, or_false] at h
  obtain rfl | rfl | rfl | rfl | rfl | rfl | rfl | rfl | rfl | rfl | rfl := h <;> rfl

/-- The registers `g` with a plain register at offset `r` written (R182). -/
def withReg (g : LaneRegs) (r : Nat) (w : Word) : LaneRegs :=
  match r with
  | 0x02 => { g with lgap := w }
  | 0x04 => { g with maxmark := w }
  | 0x06 => { g with maxiv := w }
  | 0x08 => { g with tlimit := w }
  | 0x0A => { g with pmask := w.extractLsb' 0 8 }
  | 0x0C => g.withLmcfg w
  | 0x0E => { g with mcount := w }
  | 0x10 => { g with mtimeout := w }
  | 0x12 => { g with cper := w }
  | 0x14 => { g with chigh := w }
  | _ => g

theorem writeLaneReg_eq (s : State) (n : LaneId) {r : Nat} (h : r ∈ plainLaneRegs) (w : Word) :
    s.writeLaneReg n r w = s.writeRegs n fun g => withReg g r w := by
  simp only [plainLaneRegs, List.mem_cons, List.not_mem_nil, or_false] at h
  obtain rfl | rfl | rfl | rfl | rfl | rfl | rfl | rfl | rfl | rfl := h <;> rfl

/-- PMASK reads back its byte. -/
theorem pmask_read (w : Word) : (w.extractLsb' 0 8).zeroExtend 16 = w &&& 0x00FF := by
  refine BitVec.eq_of_getLsbD_eq fun i hi => ?_
  interval_cases i <;> simp

/-- LMCFG reads back its three fields (R73). -/
theorem lmcfg_read (g : LaneRegs) (w : Word) : (g.withLmcfg w).lmcfg = w &&& 0x000F := by
  refine BitVec.eq_of_getLsbD_eq fun i hi => ?_
  simp only [LaneRegs.lmcfg, LaneRegs.withLmcfg, bit_eq_toNat, getLsbD_packFields _ _ _ _ i hi,
    getLsbD_packFields_nil, BitVec.testBit_toNat, Nat.testBit_bool_toNat]
  interval_cases i <;> simp

/-- A written register reads back within its named bits. -/
theorem regWord_withReg_self (g : LaneRegs) {r : Nat} (h : r ∈ plainLaneRegs) (w : Word) :
    regWord (withReg g r w) r = w &&& namedBits r := by
  have whole : w = w &&& 0xFFFF := BitVec.and_allOnes.symm
  simp only [plainLaneRegs, List.mem_cons, List.not_mem_nil, or_false] at h
  obtain rfl | rfl | rfl | rfl | rfl | rfl | rfl | rfl | rfl | rfl := h
  case inr.inr.inr.inr.inl => exact pmask_read w
  case inr.inr.inr.inr.inr.inl => exact lmcfg_read g w
  all_goals exact whole

/-- A write to one register is not seen in another. -/
theorem regWord_withReg_ne (g : LaneRegs) {r q : Nat} (hr : r ∈ plainLaneRegs) (hne : q ≠ r)
    (w : Word) : regWord (withReg g r w) q = regWord g q := by
  simp only [plainLaneRegs, List.mem_cons, List.not_mem_nil, or_false] at hr
  unfold regWord
  obtain rfl | rfl | rfl | rfl | rfl | rfl | rfl | rfl | rfl | rfl := hr <;> split <;>
    first | rfl | exact absurd rfl hne

/-- Settles O11: the writes and the reads as stores and looks at one word. -/
theorem registerWriteStoresField : Obligations.RegisterWriteStoresField := by
  have write (s : State) (o : BitVec 10) (w : Word) (hp : s.ctl.resetPending = false) :
      exec (.registerWrite .word o w) s = .next (s.writeWindow o w) := by
    simp only [exec, execRegisterWrite, State.hostWrite_taken s _ hp]
  refine ⟨fun s k w hk hp => ?_, fun s n r w hr hp => ?_⟩
  · refine ⟨_, write s _ w hp, ?_⟩
    rw [writeWindow_staging s hk]
    refine ⟨?_, rfl, fun j hj hne => ?_⟩
    · rw [readWindow_staging _ hk, words_withStagingWord _ hk,
        List.getElem?_set_self (by rwa [words_length])]
      rfl
    · rw [readWindow_staging _ hj, readWindow_staging _ hj, words_withStagingWord _ hk,
        List.getElem?_set_ne hne.symm]
  · obtain ⟨small, even⟩ := mem_plainLaneRegs hr
    rw [write s _ w hp, writeWindow_lane s n small even, writeLaneReg_eq s n hr, State.writeRegs,
      State.lockedWrite]
    refine ⟨fun stopped => ⟨_, rfl, ?_⟩, fun locked => congrArg _ (if_neg locked)⟩
    dsimp only
    rw [if_pos stopped]
    refine ⟨?_, by simp, fun q hq hne => ?_⟩
    · rw [readWindow_lane _ n small even, readLaneReg_eq _ n (List.mem_cons_of_mem _ hr),
        State.lane_setLane_self]
      exact regWord_withReg_self _ hr w
    · rw [readLaneReg_eq _ n hq, readLaneReg_eq _ n hq, State.lane_setLane_self]
      exact regWord_withReg_ne _ hr hne w

end Sys2Proof.Laws
end

section
/-! SUPPORT. What becomes of a meter result, what an accepted edge does to a meter unit, and how a
measurement ends, by its last item or by its timeout: the disposition (O32), the items (O31) and
MTIMEOUT_EXPIRY (O33). -/

namespace Sys2Proof.Laws

open Sys2Proof.Machine Sys2Proof.Safety

/-! ## The ring as an engine meets it (R136, R138, R139, R143) -/

/-- With the spare slot EMPTY a request for a fetch refills it where the lane may fetch. -/
theorem requestFetch_of_empty (l : Lane) (h : l.ring.slot = .empty) :
    l.requestFetch = { l with ring := { l.ring with
      slot := if l.life.fetches = true then refilled l.ring else .empty } } := by
  unfold refilled
  obtain ⟨⟨hlife, _, hret, hpost⟩, hk⟩ | ⟨hw, hk⟩ := l.requestFetch_cases <;> rw [hk]
  · rw [if_pos hlife, if_pos ⟨hret, hpost⟩]
    rfl
  · by_cases hlife : l.life.fetches = true
    · rw [if_pos hlife, if_neg fun ⟨hret, hpost⟩ => hw ⟨hlife, h, hret, hpost⟩, ← h]
    · rw [if_neg hlife, ← h]

/-- A report of a dry ring sets the latch where nothing is posted, and posts where it was clear. -/
theorem reportDry_eq (l : Lane) :
    l.reportDry = ⟨{ l with ring := { l.ring with
        ringEmpty := l.ring.ringEmpty || decide (l.ring.posted = l.ring.consumed) } },
      if l.ring.posted = l.ring.consumed ∧ l.ring.ringEmpty = false then
        [(.ringEmpty, l.ring.consumed)] else []⟩ := by
  obtain ⟨hp, he, hk⟩ | ⟨hn, hk⟩ := l.reportDry_cases <;> rw [hk]
  · simp [hp, he]
  · have kept : (l.ring.ringEmpty || decide (l.ring.posted = l.ring.consumed)) = l.ring.ringEmpty := by
      by_cases hp : l.ring.posted = l.ring.consumed <;> simp_all
    rw [kept, if_neg hn]
    rfl

theorem not_fits_iff (d : Desc) (minimum : Nat) :
    ¬ d.fits minimum ↔ d.addr.getLsbD 0 = true ∨ d.length.toNat < minimum := by
  simp only [not_and_or, Bool.not_eq_false, Nat.not_le]

theorem bind_fits {r : Ring} {d : Desc} {minimum : Nat} (hd : r.slot = .held d)
    (hf : d.fits minimum) : r.bind minimum = (some d, { r with slot := .empty }) := by
  simp only [Ring.bind, hd, if_pos hf]

theorem bind_unfit {r : Ring} {d : Desc} {minimum : Nat} (hd : r.slot = .held d)
    (hf : ¬ d.fits minimum) :
    r.bind minimum = (none, { r with slot := .empty, ret := some ⟨d, .badBuffer⟩ }) := by
  simp only [Ring.bind, hd, if_neg hf]

theorem bind_no_spare {r : Ring} (minimum : Nat) (h : ∀ d, r.slot ≠ .held d) :
    r.bind minimum = (none, r) := by
  obtain ⟨d, hd, _⟩ | ⟨d, hd, _⟩ | ⟨_, hb⟩ := r.bind_cases minimum
  · exact absurd hd (h d)
  · exact absurd hd (h d)
  · exact hb

/-! ## The disposition of a result (R81) -/

section
variable (l : Lane) (u : MeterUnit) (unit : UnitId) (why : Close)

theorem disposeResult_skipped (hs : 0 < l.skipCount) :
    l.disposeResult u unit why = { l with
      seq := l.seq + 1, skipCount := l.skipCount - 1, dropped := l.dropped + 1,
      dropWhy := .skipped }.quiet := by
  simp only [Lane.disposeResult, if_pos hs]

theorem disposeResult_noSlot (hs : l.skipCount = 0) (hr : l.result.isSome = true) :
    l.disposeResult u unit why = { l with
      seq := l.seq + 1, dropped := l.dropped + 1, dropWhy := .noSlot }.quiet := by
  simp only [Lane.disposeResult, hs, hr, Nat.lt_irrefl, if_false, if_true]

theorem disposeResult_noBuffer {ring : Ring} (hs : l.skipCount = 0) (hr : l.result = none)
    (hb : l.ring.bind l.regs.meterMinimum = (none, ring)) :
    l.disposeResult u unit why = { l with
      seq := l.seq + 1, ring := ring, dropped := l.dropped + 1, dropWhy := .noBuffer }.reportDry := by
  simp [Lane.disposeResult, hs, hr, hb]

theorem disposeResult_bound {ring : Ring} {d : Desc} (hs : l.skipCount = 0) (hr : l.result = none)
    (hb : l.ring.bind l.regs.meterMinimum = (some d, ring)) :
    l.disposeResult u unit why = { l with
      seq := l.seq + 1, ring := ring, dropped := 0,
      result := some (u.resultWith l.regs unit why d l.seq l.dropped) }.requestFetch.quiet := by
  simp [Lane.disposeResult, hs, hr, hb]

end

/-- Settles O32: the four dispositions in the rule's order, with the ring as the binding leaves it. -/
theorem resultDisposition : Obligations.ResultDisposition := by
  intro l u unit why
  dsimp only
  refine ⟨fun hs => ?_, fun hs hr => ?_, fun hs hr hd => ?_, fun d hd hs hr hbad => ?_,
    fun d hd hs hr heven hlen => ?_⟩
  · rw [disposeResult_skipped l u unit why hs]
    exact ⟨rfl, rfl⟩
  · rw [disposeResult_noSlot l u unit why hs hr, ← hs]
    exact ⟨rfl, rfl⟩
  · rw [disposeResult_noBuffer l u unit why hs hr (bind_no_spare _ hd), reportDry_eq, ← hs]
    exact ⟨rfl, rfl⟩
  · rw [disposeResult_noBuffer l u unit why hs hr (bind_unfit hd ((not_fits_iff d _).mpr hbad)),
      reportDry_eq, ← hs]
    exact ⟨rfl, rfl⟩
  · rw [disposeResult_bound l u unit why hs hr (bind_fits hd ⟨heven, hlen⟩),
      requestFetch_of_empty _ rfl]
    exact ⟨rfl, _, rfl, rfl, rfl, rfl, rfl, rfl, rfl, rfl, rfl, rfl, rfl, rfl, rfl, rfl, rfl⟩

/-! ## The end of a measurement (R80, R81, R84, R85) -/

/-- The unit goes on measuring after a measurement ended by `why` (R80). -/
abbrev measuresOn (l : Lane) (why : Close) : Prop :=
  l.life = .running ∧ l.regs.cont = true ∧ why ≠ .aborted

/-- The value of LANE_STOPPED when a lane's work ends: 3 where it ends by itself on a RUNNING lane, and the
ending's own on a STOPPING one (R120, R186). -/
def stoppedCode : Life → Option Word
  | .running => some 3
  | .stopping e => some (endingCode e)
  | _ => none

theorem not_measuresOn {l : Lane} (why : Close) (h : l.regs.cont = false ∨ l.life ≠ .running) :
    ¬ measuresOn l why := by
  rintro ⟨hl, hc, _⟩
  obtain h | h := h
  · rw [h] at hc
    cases hc
  · exact h hl

theorem stoppedCode_running {life : Life} (h : life = .running) : stoppedCode life = some 3 := h ▸ rfl

theorem stoppedCode_stopping {life : Life} {e : Ending} (h : life = .stopping e) :
    stoppedCode life = some (endingCode e) := h ▸ rfl

theorem finishMeter_waits (k : Lane) (m : MeterUnit) (h : m.state ≠ .result ∨ k.result.isSome = true) :
    k.finishMeter m = ⟨k, m, []⟩ :=
  if_neg fun ⟨hs, hr⟩ => by simp [hs, hr] at h

theorem finishMeter_releases (k : Lane) (m : MeterUnit) {code : Word} (hs : m.state = .result)
    (hr : k.result = none) (hc : stoppedCode k.life = some code) :
    k.finishMeter m = ⟨k.becomeStopped, .free, [(.laneStopped, code)]⟩ := by
  unfold Lane.finishMeter
  rw [if_pos ⟨hs, hr⟩]
  cases hl : k.life with
  | running =>
    rw [hl] at hc
    cases hc
    rfl
  | stopping e =>
    rw [hl] at hc
    cases hc
    simp only [Lane.finishStopping, hl]
    cases e <;> rfl
  | _ => rw [hl] at hc; cases hc

section
variable {l : Lane} {why : Close} (u : MeterUnit) (unit : UnitId) (now edge : Stamp)

theorem goOn_over (h : ¬ measuresOn l why) :
    u.goOn l why now edge = { u with state := .result, timeout := none } := if_neg h

/-- A unit that measures on is chained or armed afresh, and the lane's work goes on (R80). -/
theorem endMeasurement_on (h : measuresOn l why) :
    l.endMeasurement u unit why now edge = ⟨(l.disposeResult u unit why).lane,
      if l.regs.mmode = 0 ∧ why = .complete then
        (u.arm l.regs now).beginMeasurement l.regs now edge
      else u.arm l.regs now, (l.disposeResult u unit why).posts⟩ := by
  have next : u.goOn l why now edge = if l.regs.mmode = 0 ∧ why = .complete then
      (u.arm l.regs now).beginMeasurement l.regs now edge else u.arm l.regs now := if_pos h
  have state : (if l.regs.mmode = 0 ∧ why = .complete then
      (u.arm l.regs now).beginMeasurement l.regs now edge
      else u.arm l.regs now).state ≠ .result := by
    split <;> exact nofun
  simp only [Lane.endMeasurement, next, finishMeter_waits _ _ (.inl state), List.append_nil]

/-- With its result bound the unit waits for the write-back (R80). -/
theorem endMeasurement_bound (h : ¬ measuresOn l why)
    (hr : (l.disposeResult u unit why).lane.result.isSome = true) :
    l.endMeasurement u unit why now edge = ⟨(l.disposeResult u unit why).lane,
      { u with state := .result, timeout := none }, (l.disposeResult u unit why).posts⟩ := by
  simp only [Lane.endMeasurement, goOn_over u now edge h, finishMeter_waits _ _ (.inr hr),
    List.append_nil]

/-- With none bound the unit is released and the lane's work is over (R84, R85). -/
theorem endMeasurement_lost {code : Word} (h : ¬ measuresOn l why)
    (hr : (l.disposeResult u unit why).lane.result = none) (hc : stoppedCode l.life = some code) :
    l.endMeasurement u unit why now edge = ⟨(l.disposeResult u unit why).lane.becomeStopped, .free,
      (l.disposeResult u unit why).posts ++ [(.laneStopped, code)]⟩ := by
  have released := finishMeter_releases (l.disposeResult u unit why).lane
    { u with state := .result, timeout := none } rfl hr (by rwa [l.disposeResult_life])
  simp only [Lane.endMeasurement, goOn_over u now edge h, released]

/-- A measurement that does not measure on is over, as its result allows (R80). -/
theorem endMeasurement_leaves (s : State) (n : LaneId) {code : Word} (h : ¬ measuresOn l why)
    (hc : stoppedCode l.life = some code) :
    measurementOver n unit u (l.disposeResult u unit why) code s
      (s.putMeter n unit (l.endMeasurement u unit why now edge)).raiseRequest := by
  refine ⟨fun hr => ?_, fun hr => ?_⟩
  · rw [endMeasurement_bound u unit now edge h hr]
    exact putMeter_meterLeaves s n unit _
  · rw [endMeasurement_lost u unit now edge h hr hc]
    exact putMeter_meterLeaves s n unit _

end

/-! ## Items (R75 to R78) -/

theorem addItem_total (u : MeterUnit) (item : Stamp) :
    (u.addItem item).total.toNat = min (u.total.toNat + item.toNat) 0xFFFFFFFF := by
  simp only [MeterUnit.addItem]
  split
  · next h =>
    have := of_decide_eq_true h
    exact (Nat.min_eq_right (by omega)).symm
  · next h =>
    have : u.total.toNat + item.toNat < 2 ^ 32 := by simpa using h
    rw [BitVec.toNat_add_of_lt this]
    exact (Nat.min_eq_left (by omega)).symm

theorem addItem_sat (u : MeterUnit) (item : Stamp) :
    (u.addItem item).sat = true ↔ u.sat = true ∨ 0xFFFFFFFF < u.total.toNat + item.toNat := by
  simp only [MeterUnit.addItem, Bool.or_eq_true, decide_eq_true_iff]
  exact or_congr_right (by omega)

theorem addItem_minItem (u : MeterUnit) (item : Stamp) :
    (u.addItem item).minItem.toNat = min u.minItem.toNat item.toNat := by
  simp only [MeterUnit.addItem, BitVec.lt_def]
  split <;> omega

theorem addItem_maxItem (u : MeterUnit) (item : Stamp) :
    (u.addItem item).maxItem.toNat = max u.maxItem.toNat item.toNat := by
  simp only [MeterUnit.addItem, BitVec.lt_def]
  split <;> omega

/-- The edges that begin an item under MMODE (R75). -/
theorem qualifies_iff (r : LaneRegs) (active : Bool) :
    r.qualifies active = true ↔
      ((r.mmode = 0 ∨ r.mmode = 1) ∧ active = true) ∨ (r.mmode = 2 ∧ active = false) := by
  unfold LaneRegs.qualifies
  grind

/-- The edges that end an item under MMODE (R76, R77). -/
theorem endsItem_iff (r : LaneRegs) (active : Bool) :
    r.endsItem active = true ↔
      ((r.mmode = 0 ∨ r.mmode = 2) ∧ active = true) ∨ (r.mmode = 1 ∧ active = false) := by
  unfold LaneRegs.endsItem
  grind

section
variable (l : Lane) (u : MeterUnit) (unit : UnitId) (now : Stamp) (e : EdgeStamp)

/-- Short of MCOUNT the measurement goes on, under PERIOD with the next item begun (R76, R77). -/
theorem endItem_short (hin : u.inItem = true) (h : u.items + 1 ≠ l.regs.mcount.toNat) :
    l.endItem u unit now e = ⟨l, { u.addItem (e.base - u.itemStart) with
      itemStart := if l.regs.mmode = 0 then e.base else u.itemStart
      inItem := decide (l.regs.mmode = 0)
      timeout := l.regs.timeoutStart now }, []⟩ := by
  refine Eq.trans (if_neg h) ?_
  by_cases hp : l.regs.mmode = 0
  · rw [if_pos hp, if_pos hp, decide_eq_true hp, ← hin]
    rfl
  · rw [if_neg hp, if_neg hp, decide_eq_false hp]
    rfl

/-- The MCOUNTth item completes the measurement (R80). -/
theorem endItem_last (h : u.items + 1 = l.regs.mcount.toNat) :
    l.endItem u unit now e = l.endMeasurement (u.addItem (e.base - u.itemStart)) unit .complete now
      e.base := if_pos h

variable (active : Bool)

theorem meterEdge_armed (hs : u.state = .armed) :
    l.meterEdge u unit now active e = ⟨l, if l.regs.qualifies active = true then
      u.beginMeasurement l.regs now e.base else u, []⟩ := by
  simp only [Lane.meterEdge, hs]
  split <;> rfl

theorem meterEdge_between (hs : u.state = .counting) (hin : u.inItem = false) :
    l.meterEdge u unit now active e = ⟨l, if l.regs.qualifies active = true then
      { u with inItem := true, itemStart := e.base, timeout := l.regs.timeoutStart now }
      else u, []⟩ := by
  simp only [Lane.meterEdge, hs, hin, Bool.false_eq_true, false_and, if_false, true_and]
  split <;> rfl

theorem meterEdge_inItem (hs : u.state = .counting) (hin : u.inItem = true) :
    l.meterEdge u unit now active e =
      if l.regs.endsItem active = true then l.endItem u unit now e else ⟨l, u, []⟩ := by
  simp [Lane.meterEdge, hs, hin]

end

/-- Settles O31: the edge by the state of the unit, and its last item by how the measurement ends. -/
theorem itemEndContinuesOrCompletes : Obligations.ItemEndContinuesOrCompletes := by
  refine ⟨fun u item => ⟨rfl, addItem_total u item, addItem_sat u item, addItem_minItem u item,
    addItem_maxItem u item, rfl, rfl⟩, ?_⟩
  intro l u unit now active e
  dsimp only
  refine ⟨fun hs => ?_, fun hs hin => ?_, fun hs hin hends => ?_, fun hs hin hends => ?_⟩
  · rw [meterEdge_armed l u unit now e active hs]
    exact ⟨rfl, rfl, if_congr (qualifies_iff _ _) rfl rfl⟩
  · rw [meterEdge_between l u unit now e active hs hin]
    exact ⟨rfl, rfl, if_congr (qualifies_iff _ _) rfl rfl⟩
  · rw [meterEdge_inItem l u unit now e active hs hin,
      if_neg fun h => hends ((endsItem_iff _ _).mp h)]
  · rw [meterEdge_inItem l u unit now e active hs hin, if_pos ((endsItem_iff _ _).mpr hends)]
    refine ⟨fun hshort => ?_, fun hlast => ?_⟩
    · rw [endItem_short l u unit now e hin hshort]
      exact ⟨rfl, rfl, rfl⟩
    · rw [endItem_last l u unit now e hlast]
      refine ⟨fun hl hc => ?_, fun hover hr => ?_, fun hl hc hr => ?_, fun x hl hr => ?_⟩
      · rw [endMeasurement_on (why := .complete) _ unit now e.base ⟨hl, hc, nofun⟩]
        by_cases hp : l.regs.mmode = 0
        · rw [if_pos ⟨hp, rfl⟩]
          exact ⟨rfl, rfl, rfl, rfl, rfl, rfl, rfl, rfl, rfl, fun _ => ⟨rfl, rfl, rfl, rfl⟩,
            fun h => absurd hp h⟩
        · rw [if_neg fun h => hp h.1]
          exact ⟨rfl, rfl, rfl, rfl, rfl, rfl, rfl, rfl, rfl, fun h => absurd h hp,
            fun _ => ⟨rfl, rfl⟩⟩
      · rw [endMeasurement_bound _ unit now e.base (not_measuresOn _ hover) hr]
        exact ⟨rfl, rfl, rfl⟩
      · rw [endMeasurement_lost _ unit now e.base (not_measuresOn _ (.inl hc)) hr
          (stoppedCode_running hl)]
        exact ⟨rfl, rfl, rfl⟩
      · rw [endMeasurement_lost _ unit now e.base (not_measuresOn _ (.inr (hl ▸ nofun))) hr
          (stoppedCode_stopping hl)]
        exact ⟨rfl, rfl, rfl⟩

/-! ## MTIMEOUT_EXPIRY (R79) -/

/-- With MTIMEOUT in use a unit is armed with its timeout running (R75, R79). -/
theorem arm_timed {r : LaneRegs} (u : MeterUnit) (h : r.mtimeout ≠ 0) (now : Stamp) :
    u.arm r now = { MeterUnit.free with
      claim := u.claim, state := .armed, armTime := now, timeout := some now } := by
  rw [MeterUnit.arm, LaneRegs.timeoutStart, if_neg h]

theorem exec_mtimeoutExpiry_due (s : State) (n : LaneId) (u : UnitId)
    (h : s.timedOutUnit n = some u) :
    exec (.mtimeoutExpiry n) s = .next (s.putMeter n u
      ((s.lane n).endMeasurement (s.meters.get u) u .timeout s.time.count 0)).raiseRequest := by
  simp only [exec, execMtimeoutExpiry, h]

theorem exec_mtimeoutExpiry_early (s : State) (n : LaneId) (h : ¬ isDue s (.mtimeoutExpiry n)) :
    exec (.mtimeoutExpiry n) s = .next s := by
  have none_due : s.timedOutUnit n = none :=
    Option.not_isSome_iff_eq_none.mp fun k => h ((dueNow_iff s (.mtimeoutExpiry n)).mp k)
  simp only [exec, execMtimeoutExpiry, none_due]

/-- Settles O33: the report is due at the moment of the unit's timeout, and its measurement then ends as
TIMEOUT. -/
theorem meterTimeoutEndsMeasurement : Obligations.MeterTimeoutEndsMeasurement := by
  intro s n u
  dsimp only
  refine ⟨fun start ht hr hu hs hm => ⟨fun hreach => ?_, fun hearly => ?_⟩, fun hu ht => ?_,
    fun hu => ?_, fun hr => ?_⟩
  · have due : s.timedOutUnit n = some u := (timedOutUnit_eq_some s n u).mpr
      ⟨hr, hu, hs, (timedOut_iff _ _ _).mpr ⟨start, ht, hm, hreach⟩⟩
    refine ⟨_, exec_mtimeoutExpiry_due s n u due, fun hl hc => ?_, fun hl hc => ?_, fun e hl => ?_⟩
    · rw [endMeasurement_on (why := .timeout) _ u _ _ ⟨hl, hc, nofun⟩, if_neg (nofun ∘ And.right),
        arm_timed _ hm]
      exact putMeter_meterLeaves s n u _
    · exact endMeasurement_leaves _ u _ _ s n (not_measuresOn _ (.inl hc)) (stoppedCode_running hl)
    · exact endMeasurement_leaves _ u _ _ s n (not_measuresOn _ (.inr (hl ▸ nofun)))
        (stoppedCode_stopping hl)
  · refine exec_mtimeoutExpiry_early s n fun ⟨_, v, k, hheld, _, hk, _, hreach⟩ => ?_
    obtain rfl : u = v := Option.some.inj (hu.symm.trans hheld)
    obtain rfl : start = k := Option.some.inj (ht.symm.trans hk)
    exact absurd hreach (Nat.not_le.mpr hearly)
  · refine exec_mtimeoutExpiry_early s n fun ⟨_, v, k, hheld, _, hk, _⟩ => ?_
    obtain rfl : u = v := Option.some.inj (hu.symm.trans hheld)
    exact nomatch ht.symm.trans hk
  · exact exec_mtimeoutExpiry_early s n fun ⟨_, _, _, hheld, _⟩ => nomatch hu.symm.trans hheld
  · exact exec_mtimeoutExpiry_early s n fun due => hr due.1

end Sys2Proof.Laws
end

section
/-! SUPPORT. What the replay engine presents at its pin, what its header check and its timed reports do, and
the obligations that rest on it: the pin and the carrier (O34), the header check (O35), the intervals of an
INTERVALS record (O36), the trailing gap (O37) and the intervals of a CODE record (O38). -/

namespace Sys2Proof.Laws

open Sys2Proof.Machine Sys2Proof.Safety

/-! ## The pin (R100) -/

theorem pin_of_idle (l : Lane) (h : ¬ l.runs .replay) : l.pin = .released := if_neg h

/-- The pin of a replay lane at work is told by whether a mark is at the active level. -/
theorem pin_of_runs (l : Lane) (h : l.runs .replay) :
    l.pin = if l.marking = true then .driven l.regs.idle.flip
      else if l.regs.driveStyle = .drive then .driven l.regs.idle else .released := by
  unfold Lane.pin
  rw [if_pos h]
  cases l.regs.driveStyle <;> rfl

theorem marking_playing {l : Lane} {c : ReplayRecord} {p : Playing} (hr : l.rep.rstate = .rPlay)
    (hc : l.rep.current = some c) (hp : c.playing = some p) :
    l.marking = true ↔ p.isMark = true ∧ (c.carrier = true → c.carrierActive = true) := by
  simp only [Lane.marking, hr, hc, hp, Bool.and_eq_true, Bool.or_eq_true, Bool.not_eq_true']
  cases c.carrier <;> simp

theorem marking_silent {l : Lane}
    (h : l.rep.rstate ≠ .rPlay ∨ ∀ c, l.rep.current = some c → c.playing = none) :
    ¬ l.marking = true := by
  unfold Lane.marking
  split
  · next c hr hc =>
    obtain h | h := h
    · exact absurd hr h
    · simp [h c hc]
  · simp

/-! ## Reports that are not due (log 1) -/

/-- A report of the play-out that is not due changes nothing. -/
theorem exec_replay_early {s : State} (n : LaneId) {i : Instr}
    (hi : i ∈ [.firstIntervalBegin n, .intervalEnd n, .trailingGapEnd n, .carrierPhase n])
    (h : ¬ isDue s i) : exec i s = .next s := by
  rw [← dueNow_iff] at h
  simp only [List.mem_cons, List.not_mem_nil, or_false] at hi
  cases hc : (s.lane n).rep.current with
  | none =>
    obtain rfl | rfl | rfl | rfl := hi <;>
      simp only [exec, execFirstIntervalBegin, execIntervalEnd, execTrailingGapEnd,
        execCarrierPhase, hc]
  | some c =>
    obtain rfl | rfl | rfl | rfl := hi <;>
      simp only [dueNow, hc, Option.any_some, decide_eq_true_eq] at h <;>
      simp only [exec, execFirstIntervalBegin, execIntervalEnd, execTrailingGapEnd,
        execCarrierPhase, hc, if_neg h]

/-! ## CARRIER_PHASE (R101) -/

theorem switchCarrier_at_cper {c : ReplayRecord} {cper : Word} (h : c.carrierPhase = cper.toNat) :
    c.switchCarrier cper = { c with carrierPhase := 0, carrierActive := true } := by
  simp [ReplayRecord.switchCarrier, h]

theorem switchCarrier_below_cper {c : ReplayRecord} {cper : Word} (h : c.carrierPhase < cper.toNat) :
    c.switchCarrier cper = { c with carrierActive := false } := if_neg (Nat.not_le.mpr h)

theorem exec_carrierPhase_due {s : State} {n : LaneId} {c : ReplayRecord}
    (hc : (s.lane n).rep.current = some c) (due : isDue s (.carrierPhase n)) :
    exec (.carrierPhase n) s = .next (s.setLane n { s.lane n with
      rep := { (s.lane n).rep with current := some (c.switchCarrier (s.lane n).regs.cper) } }) := by
  have found : (s.lane n).carrierDue c := by
    simpa only [dueNow, hc, Option.any_some, decide_eq_true_eq] using (dueNow_iff s _).mpr due
  simp only [exec, execCarrierPhase, hc, if_pos found]

/-- Settles O34: the pin by the interval in progress, and the carrier by where its phase stands. -/
theorem pinAndCarrier : Obligations.PinAndCarrier := by
  refine ⟨fun l => ⟨pin_of_idle l, fun hl silent => ?_, fun c p hl hr hc hp => ?_⟩,
    fun s n c p => ?_, fun s n h => ?_⟩
  · rw [pin_of_runs l hl, if_neg (marking_silent silent)]
  · rw [pin_of_runs l hl]
    exact if_congr (marking_playing hr hc hp) rfl rfl
  · intro l hr hc hp
    refine ⟨fun hcar hm hphase => ?_, fun hcar hm ha hhigh hper => ?_, fun h => ?_⟩
    · rw [exec_carrierPhase_due hc ⟨hr, c, p, hc, hcar, hp, hm, .inl hphase.ge⟩,
        switchCarrier_at_cper hphase]
    · rw [exec_carrierPhase_due hc ⟨hr, c, p, hc, hcar, hp, hm, .inr ⟨ha, hhigh⟩⟩,
        switchCarrier_below_cper hper]
    · refine exec_replay_early n (by simp) fun ⟨_, c', p', hc', hcar, hp', hm, hphase⟩ => ?_
      obtain rfl : c = c' := Option.some.inj (hc.symm.trans hc')
      obtain rfl : p = p' := Option.some.inj (hp.symm.trans hp')
      obtain h | h | ⟨hper, hhigh⟩ := h
      · simp [h] at hcar
      · simp [h] at hm
      · obtain hphase | ⟨ha, hphase⟩ := hphase
        · exact absurd hphase (Nat.not_le.mpr hper)
        · obtain h | h := hhigh
          · simp [h] at ha
          · exact absurd hphase (Nat.not_le.mpr h)
  · refine exec_replay_early n (by simp) fun ⟨hr, c, _, hc, _⟩ => ?_
    obtain h | h := h
    · exact h hr
    · exact nomatch h.symm.trans hc

/-! ## The header check (R95, R107) -/

theorem endRecord_of_current {l : Lane} {c : ReplayRecord} (status : DescStatus)
    (hc : l.rep.current = some c) : l.endRecord status = { l with
      fifo := [], rep := ⟨.rWait, none, some ⟨c.desc, c.kind, status, c.passes⟩⟩ } := by
  simp only [Lane.endRecord, hc]

/-- The faults of an INTERVALS header (R95). -/
theorem headerFit_intervals (c : ReplayRecord) (p : Profile) :
    c.headerFit .intervals p = false ↔
      c.gap = 0 ∨ c.count.toNat % 2 = 0 ∨ c.desc.length.toNat < 4 + c.count.toNat := by
  simp only [ReplayRecord.headerFit, Bool.and_eq_false_iff, decide_eq_false_iff_not, not_not,
    not_and_or, Nat.not_le, Nat.mod_two_ne_one]
  rfl

/-- The faults of a CODE header (R95). -/
theorem headerFit_code (c : ReplayRecord) (p : Profile) :
    c.headerFit .code p = false ↔
      c.gap = 0 ∨ p.valid = false ∨ (c.isRepeat = true ∧ p.fields.hasRepeat = false)
        ∨ (c.isRepeat = false ∧ (c.bitCount.toNat < p.fields.bitMin.toNat
            ∨ p.fields.bitMax.toNat < c.bitCount.toNat
            ∨ c.desc.length.toNat < 4 + (c.bitCount.toNat + 15) / 16)) := by
  simp only [ReplayRecord.headerFit, Bool.and_eq_false_iff, decide_eq_false_iff_not, not_not]
  cases c.isRepeat <;> simp only [Bool.false_eq_true, if_true, if_false, decide_eq_false_iff_not,
    not_and_or, Nat.not_le, true_and, false_and, false_or, or_false, reduceCtorEq]
  rfl

section
variable {l : Lane} {table : Eight Profile} {c : ReplayRecord} {w0 w1 w2 w3 : Word} {kind : RKind}

/-- A header of an unknown kind, or one with a fault of its kind, ends the record. -/
theorem checkHeader_faulty (hw : c.loaded = [w0, w1, w2, w3])
    (h : ∀ kind, headerKind w0 = some kind → (c.readHeader w0 w1 w2 w3).headerFit kind
      (table.get (c.readHeader w0 w1 w2 w3).profile) = false) :
    l.checkHeader table c = l.endRecord .malformed := by
  simp only [Lane.checkHeader, hw]
  cases hk : headerKind w0 with
  | none => rfl
  | some kind => simp only [h kind hk, Bool.false_eq_true, if_false]

/-- A good header is held in the record, and the engine goes on by its kind (R95, R97). -/
theorem checkHeader_good (hw : c.loaded = [w0, w1, w2, w3]) (hk : headerKind w0 = some kind)
    (h : (c.readHeader w0 w1 w2 w3).headerFit kind
      (table.get (c.readHeader w0 w1 w2 w3).profile) = true) :
    l.checkHeader table c =
      let l1 := { l with rep := { l.rep with
        current := some { c.readHeader w0 w1 w2 w3 with kind := some kind } } }
      if kind = .intervals then { l1 with rep := { l1.rep with rstate := .rFill } }
      else if w2.getLsbD 4 = true then l1.enterPlay else l1 := by
  simp only [Lane.checkHeader, hw, hk, h, if_true]
  cases kind <;> rfl

end

/-- Settles O35: the header's kind first, then the faults of that kind. -/
theorem replayHeaderChecked : Obligations.ReplayHeaderChecked := by
  intro l table c w0 w1 w2 w3 hc hw hr
  dsimp only
  by_cases h1 : w0.extractLsb' 0 4 = 1
  · have hk : headerKind w0 = some .intervals := if_pos h1
    have faults := headerFit_intervals (c.readHeader w0 w1 w2 w3)
      (table.get (c.readHeader w0 w1 w2 w3).profile)
    refine ⟨fun bad => ?_, fun good => ?_⟩
    · have bad' := faults.mpr (by simpa [h1, ReplayRecord.readHeader] using bad)
      rw [checkHeader_faulty hw fun kind h => Option.some.inj (hk.symm.trans h) ▸ bad',
        endRecord_of_current _ hc]
    · have fit := Bool.eq_true_of_not_eq_false fun h => good (by
        simpa [h1, ReplayRecord.readHeader] using faults.mp h)
      rw [checkHeader_good hw hk fit]
      simp [h1, ReplayRecord.readHeader]
  · by_cases h2 : w0.extractLsb' 0 4 = 2
    · have hk : headerKind w0 = some .code := (if_neg h1).trans (if_pos h2)
      have faults := headerFit_code (c.readHeader w0 w1 w2 w3)
        (table.get (c.readHeader w0 w1 w2 w3).profile)
      refine ⟨fun bad => ?_, fun good => ?_⟩
      · have bad' := faults.mpr (by simpa [h2, ReplayRecord.readHeader] using bad)
        rw [checkHeader_faulty hw fun kind h => Option.some.inj (hk.symm.trans h) ▸ bad',
          endRecord_of_current _ hc]
      · have fit := Bool.eq_true_of_not_eq_false fun h => good (by
          simpa [h2, ReplayRecord.readHeader] using faults.mp h)
        rw [checkHeader_good hw hk fit]
        cases hrep : w2.getLsbD 4 <;>
          simp [-BitVec.getLsbD_eq_getElem, h2, hr, hrep, ReplayRecord.readHeader, Lane.enterPlay,
            Lane.mapCurrent]
    · have hk : headerKind w0 = none := (if_neg h1).trans (if_neg h2)
      refine ⟨fun _ => ?_, fun good => absurd (.inl ⟨h1, h2⟩) good⟩
      rw [checkHeader_faulty hw fun kind h => (nomatch hk.symm.trans h), endRecord_of_current _ hc]

/-! ## The reports of the play-out (R99, R102) -/

section
variable {s : State} {n : LaneId} {c : ReplayRecord}

/-- An outcome that puts lane `n` at `k` and may raise the bus request concerns the lane alone. -/
theorem leaves_of_setLane {i : Instr} {k k' : Lane}
    (h : exec i s = .next (s.setLane n k).raiseRequest) (hk : k = k') :
    ∃ t, exec i s = .next t ∧ laneOnly n s t ∧ t.lane n = k' := hk ▸ ⟨_, h, setLane_laneOnly s n k⟩

theorem exec_firstIntervalBegin_due (hc : (s.lane n).rep.current = some c)
    (due : isDue s (.firstIntervalBegin n)) : exec (.firstIntervalBegin n) s
      = .next (s.setLane n ((s.lane n).firstInterval s.table c)).raiseRequest := by
  have found : (s.lane n).firstDue c = true := by
    simpa only [dueNow, hc, Option.any_some] using (dueNow_iff s _).mpr due
  simp only [exec, execFirstIntervalBegin, hc, if_pos found]

theorem exec_intervalEnd_due (hc : (s.lane n).rep.current = some c)
    (due : isDue s (.intervalEnd n)) : exec (.intervalEnd n) s
      = .next (s.setLane n ((s.lane n).endPlaying s.table c)).raiseRequest := by
  have found : (s.lane n).intervalDue c = true := by
    simpa only [dueNow, hc, Option.any_some] using (dueNow_iff s _).mpr due
  simp only [exec, execIntervalEnd, hc, if_pos found]

theorem exec_trailingGapEnd_due (hc : (s.lane n).rep.current = some c)
    (due : isDue s (.trailingGapEnd n)) : exec (.trailingGapEnd n) s
      = .next (s.setLane n ((s.lane n).endTrail s.table c)).raiseRequest := by
  have found : (s.lane n).trailDue c = true := by
    simpa only [dueNow, hc, Option.any_some] using (dueNow_iff s _).mpr due
  simp only [exec, execTrailingGapEnd, hc, if_pos found]

end

/-! ## The begin of an interval (R99, R103 to R105) -/

section
variable {l : Lane} {table : Eight Profile} {c : ReplayRecord} {v : Word} {rest : List FifoEntry}

theorem beginInterval_code (hk : c.kind = some .code)
    (hv : (c.codeIntervals table)[c.played]? = some v) : l.beginInterval table c
      = { l with rep := { l.rep with current := some (c.beginWith l.regs.div v) } } := by
  simp only [Lane.beginInterval, hk, hv]

theorem beginInterval_head (hk : c.kind = some .intervals) (hf : l.fifo = .interval v :: rest)
    (hv : v ≠ 0) : l.beginInterval table c = { l with
      fifo := rest, rep := { l.rep with current := some (c.beginWith l.regs.div v) } } := by
  simp only [Lane.beginInterval, hk, hf, if_neg hv]

theorem beginInterval_zero (hk : c.kind = some .intervals) (hf : l.fifo = .interval 0 :: rest) :
    l.beginInterval table c = { l with
      fifo := [], rep := ⟨.rWait, none, some ⟨c.desc, c.kind, .malformed, c.passes⟩⟩ } := by
  simp only [Lane.beginInterval, hk, hf, if_true, Lane.endRecord]

theorem beginInterval_dry (hk : c.kind = some .intervals) (hf : l.fifo = []) :
    l.beginInterval table c = { l with
      fifo := [], rep := ⟨.rWait, none, some ⟨c.desc, c.kind, .underrun, c.passes⟩⟩ } := by
  simp only [Lane.beginInterval, hk, hf, Lane.endRecord]

theorem passLength_intervals (hk : c.kind = some .intervals) : c.passLength table = c.count.toNat := by
  simp only [ReplayRecord.passLength, hk]

theorem passLength_code (hk : c.kind = some .code) :
    c.passLength table = (c.codeIntervals table).length := by
  simp only [ReplayRecord.passLength, hk]

end

/-! ## FIRST_INTERVAL_BEGIN and INTERVAL_END (R99, R106) -/

/-- The first interval of the pass is to begin (R99). -/
abbrev awaitsFirst (c : ReplayRecord) : Prop := c.playing = none ∧ c.tickSeen = true

/-- The interval in progress has run down (R99). -/
abbrev ranDown (c : ReplayRecord) : Prop := ∃ p, c.playing = some p ∧ p.left = 0

section
variable {s : State} {n : LaneId} {c : ReplayRecord}

theorem isDue_firstIntervalBegin (hr : (s.lane n).rep.rstate = .rPlay)
    (hc : (s.lane n).rep.current = some c) :
    isDue s (.firstIntervalBegin n) ↔ awaitsFirst c := by
  refine ⟨fun ⟨_, d, hd, h⟩ => ?_, fun h => ⟨hr, c, hc, h⟩⟩
  obtain rfl : c = d := Option.some.inj (hc.symm.trans hd)
  exact h

theorem isDue_intervalEnd (hr : (s.lane n).rep.rstate = .rPlay)
    (hc : (s.lane n).rep.current = some c) : isDue s (.intervalEnd n) ↔ ranDown c := by
  refine ⟨fun ⟨_, d, p, hd, h⟩ => ?_, fun ⟨p, h⟩ => ⟨hr, c, p, hc, h⟩⟩
  obtain rfl : c = d := Option.some.inj (hc.symm.trans hd)
  exact ⟨p, h⟩

/-- Either report begins the next interval of the pass while there is one. -/
theorem exec_beginInterval {i : Instr} (hr : (s.lane n).rep.rstate = .rPlay)
    (hc : (s.lane n).rep.current = some c) (he : c.endPending = false)
    (h : (i = .firstIntervalBegin n ∧ awaitsFirst c)
      ∨ (i = .intervalEnd n ∧ ranDown c ∧ c.played < c.passLength s.table)) :
    exec i s = .next (s.setLane n ((s.lane n).beginInterval s.table c)).raiseRequest := by
  obtain ⟨rfl, first⟩ | ⟨rfl, ended, more⟩ := h
  · rw [exec_firstIntervalBegin_due hc ((isDue_firstIntervalBegin hr hc).mpr first)]
    simp only [Lane.firstInterval, he, Bool.false_eq_true, if_false]
  · rw [exec_intervalEnd_due hc ((isDue_intervalEnd hr hc).mpr ended)]
    simp only [Lane.endPlaying, he, Bool.false_eq_true, if_false, if_neg (Nat.not_le.mpr more)]

/-- INTERVAL_END on the last interval of the pass begins the trailing gap (R102). -/
theorem exec_beginTrail (hr : (s.lane n).rep.rstate = .rPlay)
    (hc : (s.lane n).rep.current = some c) (he : c.endPending = false) (ended : ranDown c)
    (last : c.passLength s.table ≤ c.played) :
    exec (.intervalEnd n) s = .next (s.setLane n ((s.lane n).beginTrail c)).raiseRequest := by
  rw [exec_intervalEnd_due hc ((isDue_intervalEnd hr hc).mpr ended)]
  simp only [Lane.endPlaying, he, Bool.false_eq_true, if_false, if_pos last]

/-- With end pending either report ends the record (R106, log 6). -/
theorem exec_profileChanged {i : Instr} (hr : (s.lane n).rep.rstate = .rPlay)
    (hc : (s.lane n).rep.current = some c) (he : c.endPending = true)
    (h : (i = .firstIntervalBegin n ∧ awaitsFirst c) ∨ (i = .intervalEnd n ∧ ranDown c)) :
    exec i s = .next (s.setLane n ((s.lane n).endRecord .profileChanged)).raiseRequest := by
  obtain ⟨rfl, first⟩ | ⟨rfl, ended⟩ := h
  · rw [exec_firstIntervalBegin_due hc ((isDue_firstIntervalBegin hr hc).mpr first)]
    simp only [Lane.firstInterval, he, if_true]
  · rw [exec_intervalEnd_due hc ((isDue_intervalEnd hr hc).mpr ended)]
    simp only [Lane.endPlaying, he, if_true]

end

/-- Settles O36: either report begins an interval, and the head of the FIFO decides how. -/
theorem intervalsPlayedFromFifo : Obligations.IntervalsPlayedFromFifo := by
  intro s n c
  dsimp only
  intro hr hc hk he
  refine ⟨fun i hi => ?_, fun ended last => ?_,
    fun h => exec_replay_early n (by simp) (h ∘ (isDue_firstIntervalBegin hr hc).mp),
    fun h => exec_replay_early n (by simp) (h ∘ (isDue_intervalEnd hr hc).mp)⟩
  · rw [← passLength_intervals (table := s.table) hk] at hi
    have begins := exec_beginInterval hr hc he hi
    refine ⟨fun v rest hf hv => leaves_of_setLane begins (beginInterval_head hk hf hv),
      fun status h => ?_⟩
    obtain ⟨rfl, hf⟩ | ⟨rfl, hf⟩ := h
    · obtain ⟨rest, hf⟩ := List.head?_eq_some_iff.mp hf
      exact leaves_of_setLane begins (beginInterval_zero hk hf)
    · exact leaves_of_setLane begins (beginInterval_dry hk hf)
  · exact leaves_of_setLane
      (exec_beginTrail hr hc he ended ((passLength_intervals hk).trans_le last)) rfl

/-- Settles O38: either report begins an interval of the encoder's, or ends the record with end pending. -/
theorem codePlayOutAndProfileChange : Obligations.CodePlayOutAndProfileChange := by
  intro s n c
  dsimp only
  intro hr hc
  refine ⟨fun i hi => ⟨fun v hv hk he => ?_, fun he => ?_⟩, fun ended last hk he => ?_,
    fun h => exec_replay_early n (by simp) (h ∘ (isDue_firstIntervalBegin hr hc).mp),
    fun h => exec_replay_early n (by simp) (h ∘ (isDue_intervalEnd hr hc).mp)⟩
  · have more : c.played < c.passLength s.table := by
      rw [passLength_code hk]
      exact (List.getElem?_eq_some_iff.mp hv).1
    exact leaves_of_setLane
      (exec_beginInterval hr hc he (hi.imp_right fun ⟨h, ended⟩ => ⟨h, ended, more⟩))
      (beginInterval_code hk hv)
  · exact leaves_of_setLane (exec_profileChanged hr hc he hi) (endRecord_of_current _ hc)
  · obtain ⟨only, lane⟩ := setLane_laneOnly s n ((s.lane n).beginTrail c)
    exact ⟨_, _, exec_beginTrail hr hc he ended ((passLength_code hk).trans_le last), only, lane, rfl⟩

/-! ## TRAILING_GAP_END (R98, R102) -/

/-- The record once a pass of it has been completed (R102). -/
def passed (c : ReplayRecord) : ReplayRecord :=
  { c with passes := c.passes + 1, played := 0, playing := none, tickSeen := false }

section
variable {l : Lane} {table : Eight Profile} {c : ReplayRecord}

theorem endTrail_last (h : c.passes + 1 = c.repeatCount.toNat + 1) : l.endTrail table c = { l with
    fifo := [], rep := ⟨.rWait, none, some ⟨c.desc, c.kind, .ok, c.passes + 1⟩⟩ } := if_pos h

theorem endTrail_stopped (h : ¬ c.passes + 1 = c.repeatCount.toNat + 1)
    (hs : c.stopRequested = true) : l.endTrail table c = { l with
      fifo := [], rep := ⟨.rWait, none, some ⟨c.desc, c.kind, .stoppedEarly, c.passes + 1⟩⟩ } :=
  (if_neg h).trans (if_pos hs)

/-- A further pass begins at once where its intervals are at hand (R98, R103). -/
theorem endTrail_begins (h : ¬ c.passes + 1 = c.repeatCount.toNat + 1)
    (hs : c.stopRequested = false)
    (ready : c.kind = some .code ∨ min c.count.toNat 16 ≤ l.fifo.length) :
    l.endTrail table c = Lane.beginInterval
      { l with rep := ⟨.rPlay, some (passed c), l.rep.finished⟩ } table (passed c) :=
  ((if_neg h).trans (if_neg (by simp [hs]))).trans (if_pos ready)

/-- An INTERVALS record short of the threshold is filled first (R97, R98). -/
theorem endTrail_fills (h : ¬ c.passes + 1 = c.repeatCount.toNat + 1)
    (hs : c.stopRequested = false) (hk : c.kind = some .intervals)
    (short : l.fifo.length < min c.count.toNat 16) :
    l.endTrail table c = { l with rep := ⟨.rFill, some (passed c), l.rep.finished⟩ } := by
  have waits : ¬ (c.kind = some .code ∨ min c.count.toNat 16 ≤ l.fifo.length) := by
    simp [hk, Nat.not_le.mpr short]
  exact ((if_neg h).trans (if_neg (by simp [hs]))).trans (if_neg waits)

end

/-- Settles O37: the pass is counted, and what follows is decided by the passes left, by STOP and by the
intervals at hand. -/
theorem trailingGapEndsPass : Obligations.TrailingGapEndsPass := by
  intro s n c
  dsimp only
  intro hr hc
  have due (h : c.gapLeft = 0) := exec_trailingGapEnd_due hc ⟨hr, c, hc, h⟩
  refine ⟨fun h last => leaves_of_setLane (due h) (endTrail_last last),
    fun h more stop => leaves_of_setLane (due h) (endTrail_stopped more stop),
    fun v rest code ⟨h, more, go⟩ hk => leaves_of_setLane (due h) ?_,
    fun ⟨h, more, go⟩ hk short => leaves_of_setLane (due h) (endTrail_fills more go hk short),
    fun v rest hf ⟨h, more, go⟩ hk full => ?_, fun h => ?_⟩
  · rw [endTrail_begins more go (.inl hk)]
    exact beginInterval_code hk (congrArg (·[0]?) code)
  · have begins := endTrail_begins (table := s.table) more go (.inr full)
    refine ⟨fun hv => leaves_of_setLane (due h) (begins.trans (beginInterval_head hk hf hv)), ?_⟩
    rintro rfl
    exact leaves_of_setLane (due h) (begins.trans (beginInterval_zero hk hf))
  · refine exec_replay_early n (by simp) fun ⟨_, d, hd, hgap⟩ => h ?_
    obtain rfl : c = d := Option.some.inj (hc.symm.trans hd)
    exact hgap

end Sys2Proof.Laws
end

section
/-! SUPPORT. What the commands of LCMD that no engine answers do: RECOVER (O44), RESET (O45), SKIP and
FLUSH (O43), and START's checks (O39). -/

namespace Sys2Proof.Laws

open Sys2Proof.Machine Sys2Proof.Safety

/-! ## The rows of LCMD, with no soft reset pending (R115, R180) -/

section
variable {s : State} (h : s.ctl.resetPending = false) (n : LaneId) (arg : BitVec 12)
include h

theorem exec_start : exec (.start n arg) s = .next (s.startLane n) :=
  congrArg Host.Outcome.next (s.hostWrite_taken _ h)

theorem exec_stop : exec (.stop n arg) s = .next (s.stopLane n) :=
  congrArg Host.Outcome.next (s.hostWrite_taken _ h)

theorem exec_abort : exec (.abort n arg) s = .next (s.abortLane n) :=
  congrArg Host.Outcome.next (s.hostWrite_taken _ h)

theorem exec_skip : exec (.skip n arg) s = .next (s.setLane n ((s.lane n).skip arg)) :=
  congrArg Host.Outcome.next (s.hostWrite_taken _ h)

theorem exec_flush :
    exec (.flush n arg) s = .next (s.putLane n (s.lane n).flush).raiseRequest :=
  congrArg Host.Outcome.next (s.hostWrite_taken _ h)

theorem exec_recover : exec (.recover n arg) s = .next (s.setLane n (s.lane n).recover) :=
  congrArg Host.Outcome.next (s.hostWrite_taken _ h)

theorem exec_reset : exec (.reset n arg) s = .next (s.resetLane n .accepted) :=
  congrArg Host.Outcome.next (s.hostWrite_taken _ h)

end

/-! ## RECOVER (R123) -/

theorem recover_of_faulted {l : Lane} {c : FaultCause} (h : l.life = .faulted c) :
    l.recover = { l with
      life := .stopped, lresult := .accepted, writeIgnored := false
      ring := { l.ring with slot := .empty, flcount := 0 } } := by
  simp only [Lane.recover, h]
  rfl

theorem recover_of_other {l : Lane} (h : ∀ c, l.life ≠ .faulted c) :
    l.recover = { l with lresult := .busy } := by
  unfold Lane.recover
  split
  · next c hc => exact absurd hc (h c)
  · rfl

/-- Settles O44: whether the lane is FAULTED decides. -/
theorem recoverClearsFault : Obligations.RecoverClearsFault := by
  intro s n arg hp
  dsimp only
  rw [exec_recover hp]
  exact ⟨fun c hc => by rw [recover_of_faulted hc], fun h => by rw [recover_of_other h]⟩

/-! ## RESET (R124, R128, R129, R159) -/

/-- Marking a lane's burst as orphan leaves the fault record, the pointer and RESPLIM. -/
theorem orphan_frame (b : BusMaster) (n : LaneId) :
    (b.orphan n).fault = b.fault ∧ (b.orphan n).ptr = b.ptr ∧ (b.orphan n).resplim = b.resplim := by
  unfold BusMaster.orphan
  split
  · split <;> exact ⟨rfl, rfl, rfl⟩
  · exact ⟨rfl, rfl, rfl⟩

theorem orphan_own {m : BusMaster} {b : Burst} (h : m.burst = some b) :
    (m.orphan b.lane).burst = some { b with remaining := 1, orphan := true } := by
  simp only [BusMaster.orphan, (burst_eq_some m b).mp h, if_true, BusMaster.burst]

theorem orphan_other {m : BusMaster} {n : LaneId} {b : Burst} (h : m.burst = some b)
    (hn : b.lane ≠ n) : m.orphan n = m := by
  simp only [BusMaster.orphan, (burst_eq_some m b).mp h, if_neg hn]

theorem afterReset_values (line : Level) (count : Stamp) (result : LResult) :
    laneResetValues line count result (.afterReset line count result) := by
  simp [laneResetValues, Lane.afterReset, LaneRegs.reset, Assembler.reset, ReplayEngine.reset,
    Ring.reset, Matcher.off]

/-- Settles O45: the lane is replaced whole, its units are released and its burst is cut short. (The plain
name is that of the predicate in Safety.lean.) -/
theorem laneResetValues_of_reset : Obligations.LaneResetValues := by
  intro s n arg hp
  obtain ⟨hfault, hptr, hresplim⟩ := orphan_frame s.bus n
  refine ⟨_, exec_reset hp n arg, ?_, resetLane_shared s n _, resetLane_others s n _, rfl,
    fun u hu => ?_, fun u hu => ?_, hfault, hptr, hresplim, fun b hb hn => ?_,
    fun b hb hn => orphan_other hb hn⟩
  · rw [State.resetLane, State.lane_setLane_self]
    exact afterReset_values _ _ _
  · exact congrArg MeterUnit.claim ((s.meters.get_release n u).trans (if_pos hu))
  · exact (s.meters.get_release n u).trans (if_neg hu)
  · subst hn
    exact orphan_own hb

/-! ## SKIP (R121) -/

/-- A SKIP that is not accepted changes LRESULT alone. -/
theorem skip_refused {l : Lane} {arg : BitVec 12} {r : LResult} (hr : r ≠ .accepted)
    (h : l.skipVerdict arg = r) : l.skip arg = { l with lresult := r } := by
  unfold Lane.skip
  rw [h]
  cases r with
  | accepted => exact absurd rfl hr
  | _ => rfl

theorem skip_accepted {l : Lane} {arg : BitVec 12} (h : l.skipVerdict arg = .accepted) :
    l.skip arg = { l with
      lresult := .accepted, writeIgnored := false, skipCount := arg.toNat } := by
  unfold Lane.skip
  rw [h]
  rfl

/-- With a count in range on a lane of another mode than REPLAY the lane's state decides. -/
theorem skipVerdict_in_range {l : Lane} {arg : BitVec 12} (h1 : 1 ≤ arg.toNat)
    (h2 : arg.toNat ≤ 1023) (hm : l.regs.lmode ≠ .replay) :
    l.skipVerdict arg = if l.life ≠ .running then .busy else .accepted := by
  have inRange : ¬ (arg = 0 ∨ 1023 < arg.toNat) := by
    rintro (rfl | h)
    · exact absurd h1 (by decide)
    · omega
  rw [Lane.skipVerdict, if_neg inRange, if_neg hm]

/-! ## FLUSH (R122, R144, R145) -/

/-- The lane a FLUSH that is taken leaves before any fetch is requested: FLUSHING, with FLCOUNT 0. -/
abbrev flushingLane (l : Lane) (r : Ring) : Lane :=
  { l with lresult := .accepted, writeIgnored := false, life := .flushing false, ring := r }

theorem flush_taken {l : Lane} (hl : l.life = .stopped) (hs : l.ring.sizeFit) :
    l.flush = (flushingLane l l.ring.beginFlush).requestFetch.checkFlush := by
  unfold Lane.flush
  rw [if_neg (not_not.mpr hl), if_pos hs]
  rfl

/-- A held spare goes back as FLUSHED. -/
theorem beginFlush_held {r : Ring} {d : Desc} (h : r.slot = .held d) :
    r.beginFlush = { r with flcount := 0, slot := .empty, ret := some ⟨d, .flushed⟩ } := by
  simp only [Ring.beginFlush, h]

/-- The ring controller with FLCOUNT 0. -/
abbrev uncounted (r : Ring) : Ring := { r with flcount := 0 }

theorem beginFlush_unheld {r : Ring} (h : ∀ d, r.slot ≠ .held d) : r.beginFlush = uncounted r := by
  unfold Ring.beginFlush
  split
  · next d hd => exact absurd hd (h d)
  · rfl

/-- With something fetched or returning the lane requests no fetch and goes on flushing. -/
theorem flushing_goes_on (l : Lane) {r : Ring} (h : r.slot ≠ .empty ∨ r.ret ≠ none) :
    (flushingLane l r).requestFetch.checkFlush = (flushingLane l r).quiet := by
  obtain ⟨⟨_, hs, hr, _⟩, _⟩ | ⟨_, hk⟩ := (flushingLane l r).requestFetch_cases
  · exact (h.resolve_left (not_not.mpr hs) hr).elim
  · rw [hk]
    obtain ⟨_, hs, hr, _⟩ | ⟨_, hq⟩ := (flushingLane l r).checkFlush_cases
    · exact (h.resolve_left (not_not.mpr hs) hr).elim
    · exact hq

/-- With nothing fetched or returning the next entry posted is fetched. -/
theorem flushing_fetches (l : Lane) {r : Ring} (hs : r.slot = .empty) (hr : r.ret = none)
    (hp : r.posted ≠ r.consumed) : (flushingLane l r).requestFetch.checkFlush
      = (flushingLane l { r with
          slot := .fetching (r.consumed.toNat % r.rsize.toNat) false [] }).quiet := by
  obtain ⟨_, hk⟩ | ⟨hn, _⟩ := (flushingLane l r).requestFetch_cases
  · rw [hk]
    obtain ⟨_, he, _⟩ | ⟨_, hq⟩ := (flushingLane l { r with
      slot := .fetching r.nextIndex false [] }).checkFlush_cases
    · cases he
    · exact hq
  · exact absurd ⟨rfl, hs, hr, hp⟩ hn

/-- With nothing posted either the flush ends at once. -/
theorem flushing_ends (l : Lane) {r : Ring} (hs : r.slot = .empty) (hr : r.ret = none)
    (hp : r.posted = r.consumed) : (flushingLane l r).requestFetch.checkFlush
      = ⟨{ flushingLane l r with life := .stopped }, [(.flushDone, r.flcount)]⟩ := by
  obtain ⟨⟨_, _, _, hne⟩, _⟩ | ⟨_, hk⟩ := (flushingLane l r).requestFetch_cases
  · exact absurd hp hne
  · have kept : r.withdraw = r := by simp only [Ring.withdraw, hs]
    obtain ⟨_, _, _, _, hq⟩ | ⟨hn, _⟩ := (flushingLane l r).checkFlush_cases
    · rw [hk, hq, Lane.becomeStopped, kept]
    · exact absurd ⟨rfl, hs, hr, hp⟩ hn

/-- Settles O43: SKIP by its verdict, and FLUSH by what the ring controller holds. -/
theorem skipAndFlush : Obligations.SkipAndFlush := by
  refine ⟨fun s n arg hp => ?_, fun s n arg hp => ?_⟩ <;> dsimp only
  · rw [exec_skip hp]
    refine ⟨fun ha => ?_, fun hm => ?_, fun h1 h2 hm hl => ?_, fun h1 h2 hm hl => ?_⟩
    · rw [skip_refused (r := .badCommand) nofun (if_pos ha)]
    · rw [skip_refused (r := .badCommand) nofun (by simp [Lane.skipVerdict, hm])]
    · rw [skip_refused (r := .busy) nofun ((skipVerdict_in_range h1 h2 hm).trans (if_pos hl))]
    · rw [skip_accepted ((skipVerdict_in_range h1 h2 hm).trans (if_neg (not_not.mpr hl)))]
  · rw [exec_flush hp]
    have only (k : Lane) := setLane_laneOnly s n k
    refine ⟨fun hl => ⟨_, rfl, ?_⟩, fun hl hfit => ⟨_, rfl, ?_⟩, fun hl hfit =>
      ⟨_, rfl, fun d hd => ?_, fun hs hr hpost => ?_, fun hs => ?_, fun hs hr hpost => ?_⟩⟩
    · rw [show (s.lane n).flush = ((s.lane n).answer .busy).quiet from if_pos hl]
      exact only _
    · rw [show (s.lane n).flush = ((s.lane n).answer .badConfig).quiet from
        (if_neg (not_not.mpr hl)).trans (if_neg hfit)]
      exact only _
    · rw [flush_taken hl hfit, beginFlush_held hd,
        flushing_goes_on _ (.inr (Option.some_ne_none _))]
      exact only _
    · rw [flush_taken hl hfit, beginFlush_unheld (by simp [hs]),
        flushing_fetches (r := uncounted _) _ hs hr hpost]
      exact only _
    · have unheld : ∀ d, (s.lane n).ring.slot ≠ .held d := by
        rintro d hd
        obtain h | ⟨h, _⟩ := hs <;> simp [hd, Slot.isFetching] at h
      have held_up : (s.lane n).ring.slot ≠ .empty ∨ (s.lane n).ring.ret ≠ none :=
        hs.imp (fun h he => by simp [he, Slot.isFetching] at h) And.right
      rw [flush_taken hl hfit, beginFlush_unheld unheld,
        flushing_goes_on (r := uncounted _) _ held_up]
      exact only _
    · rw [flush_taken hl hfit, beginFlush_unheld (by simp [hs]),
        flushing_ends (r := uncounted _) _ hs hr hpost]
      exact putLane_lanePosts s n _

/-! ## START's checks (R116) -/

theorem modeFit_capture {r : LaneRegs} (table : Eight Profile) (h : r.lmode = .capture) :
    r.modeFit table = true ↔ 2 ≤ r.lgap.toNat ∧ r.minw.toNat < r.lgap.toNat
      ∧ r.minw.toNat ≤ r.maxmark.toNat ∧ r.maxmark ≠ 0 ∧ 1 ≤ r.maxiv.toNat ∧ r.maxiv.toNat ≤ 1023
      ∧ ∀ i : ProfileIx, r.pmask.getLsbD i.val = true → (table.get i).valid = true := by
  have named : (Eight.numbers.all fun i => !r.pmask.getLsbD i.val || (table.get i).valid) = true
      ↔ ∀ i : ProfileIx, r.pmask.getLsbD i.val = true → (table.get i).valid = true := by
    rw [List.all_eq_true]
    refine ⟨fun k i hi => ?_, fun k i _ => ?_⟩
    · simpa [-BitVec.getLsbD_eq_getElem, hi] using k i (Eight.mem_numbers i)
    · cases hi : r.pmask.getLsbD i.val with
      | false => rfl
      | true => exact k i hi
  simp only [LaneRegs.modeFit, h, Bool.and_eq_true, decide_eq_true_iff, named, and_assoc]

theorem modeFit_meter {r : LaneRegs} (table : Eight Profile) (h : r.lmode = .meter) :
    r.modeFit table = true ↔ r.mmode ≠ 3 ∧ 1 ≤ r.mcount.toNat ∧ r.mcount.toNat ≤ 1023 := by
  simp only [LaneRegs.modeFit, h, decide_eq_true_iff]

theorem modeFit_replay {r : LaneRegs} (table : Eight Profile) (h : r.lmode = .replay) :
    r.modeFit table = true ↔ 2 ≤ r.cper.toNat ∧ r.cper.toNat ≤ 1023 ∧ 1 ≤ r.chigh.toNat
      ∧ r.chigh.toNat < r.cper.toNat := by
  simp only [LaneRegs.modeFit, h, decide_eq_true_iff]

/-- The configuration table of R116: MINW and RSIZE, and the fields of the lane's mode. -/
theorem configFit_iff (l : Lane) (table : Eight Profile) :
    l.configFit table = true ↔ l.regs.minw ≠ 0 ∧ 2 ≤ l.ring.rsize.toNat ∧ l.ring.rsize.toNat ≤ 256
      ∧ l.regs.modeFit table = true := by
  simp only [Lane.configFit, Bool.and_eq_true, decide_eq_true_iff, and_assoc]

theorem lowestFree_none_iff (p : MeterPool) :
    p.lowestFree = none ↔ ∀ u, (p.get u).claim ≠ none := by
  rw [Fin.forall_fin_two]
  unfold MeterPool.lowestFree
  by_cases h0 : p.meter0.claim = none
  · simp [h0, MeterPool.get]
  · by_cases h1 : p.meter1.claim = none <;> simp [h0, h1, MeterPool.get]

/-- On a STOPPED lane with ENABLE 1 and a fit configuration only the meter pool can refuse (R71). -/
theorem startVerdict_of_fit {s : State} {n : LaneId} (hl : (s.lane n).life = .stopped)
    (on : s.ctl.enable = true) (fit : (s.lane n).configFit s.table = true) :
    s.startVerdict n = if (s.lane n).regs.lmode = .meter ∧ s.meters.lowestFree = none then .noMeter
      else .accepted := by
  simp only [State.startVerdict, hl, on, fit, ne_eq, not_true_eq_false, Bool.true_eq_false, if_false]

/-- A START that is not accepted changes LRESULT alone. -/
theorem startLane_refused {s : State} {n : LaneId} {r : LResult} (hr : r ≠ .accepted)
    (h : s.startVerdict n = r) : s.startLane n = s.setLane n { s.lane n with lresult := r } := by
  unfold State.startLane
  rw [h]
  cases r with
  | accepted => exact absurd rfl hr
  | _ => rfl

/-- Settles O39: the table by the lane's mode, and the first check that fails. -/
theorem startConfigurationAndRefusals : Obligations.StartConfigurationAndRefusals := by
  refine ⟨fun l table => ?_, fun s n arg hp => ?_⟩
  · rw [configFit_iff]
    refine and_congr_right fun _ => and_congr_right fun _ => and_congr_right fun _ => ?_
    cases hm : l.regs.lmode with
    | none => simp [LaneRegs.modeFit, hm]
    | capture => simpa using modeFit_capture table hm
    | meter => simpa using modeFit_meter table hm
    | replay => simpa using modeFit_replay table hm
  · dsimp only
    rw [exec_start hp]
    refine ⟨fun hl => ?_, fun hl off => ?_, fun hl on unfit => ?_, fun hl on fit hm claimed => ?_⟩
    · rw [startLane_refused (r := .busy) nofun (if_pos hl)]
    · rw [startLane_refused (r := .disabled) nofun (by simp [State.startVerdict, hl, off])]
    · rw [startLane_refused (r := .badConfig) nofun (by simp [State.startVerdict, hl, on, unfit])]
    · rw [startLane_refused (r := .noMeter) nofun ((startVerdict_of_fit hl on fit).trans
        (if_pos ⟨hm, (lowestFree_none_iff _).mpr claimed⟩))]

end Sys2Proof.Laws
end

section
/-! SUPPORT. How START begins the engine of each mode (O40). -/

namespace Sys2Proof.Laws

open Sys2Proof.Machine Sys2Proof.Safety

/-! ## The fetch that follows (R136) -/

/-- The ring controller of a lane that may fetch, once it has been asked for a fetch. -/
abbrev fetchAsked (r : Ring) : Ring :=
  { r with slot := if r.slot = .empty then refilled r else r.slot }

theorem requestFetch_of_fetches {l : Lane} (h : l.life.fetches = true) :
    l.requestFetch = { l with ring := fetchAsked l.ring } := by
  by_cases hs : l.ring.slot = .empty
  · rw [requestFetch_of_empty l hs, if_pos h, fetchAsked, if_pos hs]
  · obtain ⟨⟨_, k, _⟩, _⟩ | ⟨_, hk⟩ := l.requestFetch_cases
    · exact absurd k hs
    · rw [hk, fetchAsked, if_neg hs]

/-- A second request finds what the first one left. -/
theorem requestFetch_twice (l : Lane) : l.requestFetch.requestFetch = l.requestFetch := by
  obtain ⟨_, hk⟩ | ⟨_, hk⟩ := l.requestFetch_cases
  · rw [hk]
    obtain ⟨⟨_, k, _⟩, _⟩ | ⟨_, hk'⟩ := Lane.requestFetch_cases { l with ring := { l.ring with
      slot := .fetching l.ring.nextIndex false [] } }
    · cases k
    · exact hk'
  · rw [hk, hk]

theorem next_requestFetch (o : LaneOut) :
    (o.next fun m => m.requestFetch.quiet) = ⟨o.lane.requestFetch, o.posts⟩ := by
  simp only [LaneOut.next, Lane.quiet_lane, Lane.quiet_posts, List.append_nil]

/-! ## The engine of each mode -/

/-- The unit that lane `n` has claimed and armed (R71, R75). -/
abbrev armedFor (n : LaneId) (r : LaneRegs) (now : Stamp) : MeterUnit :=
  MeterUnit.arm { MeterUnit.free with claim := some n } r now

section
variable (s : State) (n : LaneId) (l : Lane)

theorem beginEngine_capture (h : l.regs.lmode = .capture) :
    s.beginEngine n l = s.setLane n (l.startCapture s.time.count).requestFetch := by
  simp only [State.beginEngine, h]

theorem beginEngine_meter {u : UnitId} (h : l.regs.lmode = .meter)
    (hu : s.meters.lowestFree = some u) : s.beginEngine n l
      = { s with meters := s.meters.set u (armedFor n l.regs s.time.count) }.setLane n
          l.requestFetch := by
  simp only [State.beginEngine, h, hu]

theorem beginEngine_replay (h : l.regs.lmode = .replay) : s.beginEngine n l
    = s.putLane n ⟨l.startReplay.lane.requestFetch, l.startReplay.posts⟩ := by
  simp only [State.beginEngine, h, next_requestFetch]

theorem beginEngine_bus : (s.beginEngine n l).bus = s.bus := by
  unfold State.beginEngine
  split
  · rfl
  · split <;> rfl
  · exact State.putLane_bus _ _ _
  · rfl

end

/-- The lane that a START which passes its checks hands to its engine (R117). -/
abbrev begunLane (l : Lane) : Lane :=
  { l with life := .running, lresult := .accepted, writeIgnored := false }

theorem startLane_accepted {s : State} {n : LaneId} (h : s.startVerdict n = .accepted) :
    s.startLane n = (s.beginEngine n (begunLane (s.lane n))).raiseRequest := by
  unfold State.startLane
  rw [h]
  rfl

/-- What START leaves of the rest of the part, whatever engine it begins. -/
theorem beginEngine_frame (s : State) (n : LaneId) (l : Lane) :
    sharedKept s (s.beginEngine n l).raiseRequest ∧ othersKept n s (s.beginEngine n l).raiseRequest
      ∧ busKept s (s.beginEngine n l).raiseRequest :=
  ⟨shared_raise (beginEngine_shared s n l), others_raise (beginEngine_others s n l),
    busKept_raise (beginEngine_bus s n l)⟩

/-! ## CAPTURE (R15, R19, R20) -/

/-- The assembler arms, or listens at once on a line at rest with no change pending. -/
theorem startCapture_eq (l : Lane) (now : Stamp) :
    l.startCapture now = { l with cap := {
      cstate := if l.waitReached now ∧ l.fe.change = none then .listen else .arming
      frame := none
      waiting := decide (l.waitReached now ∧ l.fe.change ≠ none)
      records := [] } } := by
  have judged : l.startCapture now = if l.waitReached now then
      Lane.reachWaitPoint { l with cap := { Assembler.reset with cstate := .arming } }
      else { l with cap := { Assembler.reset with cstate := .arming } } := rfl
  by_cases h : l.waitReached now
  · rw [judged, if_pos h, reachWaitPoint_eq]
    cases l.fe.change <;> simp [Lane.filteredIdle, h.1, h.2, Assembler.reset]
  · rw [judged, if_neg h, if_neg fun k => h k.1, decide_eq_false fun k => h k.1]
    rfl

/-! ## METER (R71, R75) -/

theorem lowestFree_least {p : MeterPool} {u : UnitId} (h : p.lowestFree = some u) :
    ∀ v, v < u → (p.get v).claim ≠ none := by
  unfold MeterPool.lowestFree at h
  split at h
  · cases h
    exact fun v hv => absurd hv (Fin.not_lt_zero v)
  · next h0 =>
    split at h
    · cases h
      intro v hv
      obtain rfl : v = 0 := Fin.lt_one_iff v |>.mp hv
      exact h0
    · cases h

/-! ## REPLAY (R92 to R94, R143) -/

/-- The replay engine as START leaves it before it seeks a spare: in R_WAIT with no record. -/
abbrev replayWaiting (l : Lane) : Lane := { l with rep := ⟨.rWait, none, none⟩ }

/-- The ring is dry and its latch is clear: RING_EMPTY is to be posted (R143). -/
abbrev newlyDry (r : Ring) : Prop := r.posted = r.consumed ∧ r.ringEmpty = false

/-- With no spare held a dry ring is reported once. -/
theorem startReplay_unheld {l : Lane} (hl : l.life = .running) (h : ∀ d, l.ring.slot ≠ .held d) :
    l.startReplay = ⟨{ replayWaiting l with
        ring := { l.ring with ringEmpty := l.ring.ringEmpty || decide (newlyDry l.ring) } },
      if newlyDry l.ring then [(.ringEmpty, l.ring.consumed)] else []⟩ := by
  have untaken : (replayWaiting l).takeSpare = replayWaiting l := by
    obtain ⟨d, hd, _⟩ | hk := (replayWaiting l).takeSpare_cases
    · exact absurd hd (h d)
    · exact hk
  have reports : l.startReplay = (replayWaiting l).reportDry := by
    rw [Lane.startReplay, Lane.seekSpare, untaken]
    exact if_pos ⟨hl, rfl, rfl⟩
  rw [reports]
  obtain ⟨hp, he, hk⟩ | ⟨hn, hk⟩ := (replayWaiting l).reportDry_cases
  · rw [hk, decide_eq_true (p := newlyDry l.ring) ⟨hp, he⟩, Bool.or_true, if_pos ⟨hp, he⟩]
  · rw [hk, decide_eq_false (p := newlyDry l.ring) hn, Bool.or_false, if_neg hn]
    rfl

/-- A held spare is taken, and whatever comes of it there is no dry ring to report. -/
theorem startReplay_held {l : Lane} {d : Desc} (hm : l.regs.lmode = .replay) (hl : l.life = .running)
    (hd : l.ring.slot = .held d) : l.startReplay = (Lane.takeRecord (replayWaiting { l with
      ring := { l.ring with slot := .empty } }) d).requestFetch.quiet := by
  have taken : (replayWaiting l).takeSpare = (Lane.takeRecord (replayWaiting { l with
      ring := { l.ring with slot := .empty } }) d).requestFetch := by
    simp only [Lane.takeSpare, hd, hm, hl, and_self, if_true]
  rw [Lane.startReplay, Lane.seekSpare, taken]
  refine if_neg ?_
  rw [Lane.requestFetch_rep]
  rintro ⟨_, hw, hf⟩
  obtain ⟨_, hk⟩ | ⟨_, hk⟩ := Lane.takeRecord_cases (replayWaiting { l with
    ring := { l.ring with slot := .empty } }) d
  · rw [hk] at hw
    cases hw
  · rw [hk] at hf
    cases hf

/-- The record taken from a held spare, with the fetch that follows (R93, R94, R136). -/
theorem replayTakes_of_takeRecord {l : Lane} (d : Desc) (hl : l.life = .running) :
    replayTakes l d { l.ring with slot := refilled l.ring }
      (Lane.takeRecord (replayWaiting { l with
        ring := { l.ring with slot := .empty } }) d).requestFetch := by
  have fetches : l.life.fetches = true := by rw [hl]; rfl
  obtain ⟨hfit, hk⟩ | ⟨hfit, hk⟩ := Lane.takeRecord_cases (replayWaiting { l with
    ring := { l.ring with slot := .empty } }) d
  all_goals
    rw [hk, requestFetch_of_empty _ rfl]
    dsimp only
    rw [if_pos fetches]
  · exact ⟨fun _ _ => ⟨rfl, rfl, rfl, _, rfl, rfl, rfl, rfl, rfl⟩,
      fun bad => absurd hfit ((not_fits_iff d _).mpr bad)⟩
  · exact ⟨fun even len => absurd ⟨even, len⟩ hfit, fun _ => rfl⟩

/-- Settles O40: the verdict is ACCEPTED, and the mode names the engine that begins. -/
theorem startBeginsEngine : Obligations.StartBeginsEngine := by
  intro s n arg hp
  dsimp only
  intro hl on fit free
  have available : ¬ ((s.lane n).regs.lmode = .meter ∧ s.meters.lowestFree = none) :=
    fun ⟨hm, hnone⟩ => (free hm).elim ((lowestFree_none_iff _).mp hnone)
  have accepted := startLane_accepted ((startVerdict_of_fit hl on fit).trans (if_neg available))
  obtain ⟨hshared, hothers, hbus⟩ := beginEngine_frame s n (begunLane (s.lane n))
  rw [exec_start hp, accepted]
  refine ⟨_, rfl, hshared, hothers, hbus, fun hm => ?_, fun hm => ?_, fun hm => ?_⟩
  · rw [beginEngine_capture s n (begunLane (s.lane n)) hm, startCapture_eq,
      requestFetch_of_fetches rfl]
    exact ⟨by simp, by simp, (setLane_laneOnly s n _).2⟩
  · obtain ⟨u, hu⟩ := Option.ne_none_iff_exists'.mp fun h => available ⟨hm, h⟩
    rw [beginEngine_meter s n (begunLane (s.lane n)) hm hu,
      requestFetch_of_fetches (l := begunLane _) rfl]
    refine ⟨by simp, by simp, u, s.meters.lowestFree_some u hu, lowestFree_least hu, ?_⟩
    simp only [State.raiseRequest_meters, State.setLane_meters, MeterPool.get_set_self]
    exact ⟨rfl, rfl, rfl, rfl, rfl, rfl, rfl, rfl, rfl, fun v hv => MeterPool.get_set_ne _ _ hv⟩
  · rw [beginEngine_replay s n (begunLane (s.lane n)) hm]
    refine ⟨by simp, fun unheld => ?_, fun d hd => ?_⟩
    · rw [startReplay_unheld (l := begunLane (s.lane n)) rfl unheld, requestFetch_of_fetches rfl]
      refine ⟨(putLane_lanePosts s n _).2, ?_⟩
      rw [State.raiseRequest_queue, State.putLane_queue]
      by_cases hd : newlyDry (s.lane n).ring
      · rw [if_pos hd, if_pos hd]
        rfl
      · rw [if_neg hd, if_neg hd]
        rfl
    · rw [startReplay_held (l := begunLane (s.lane n)) hm rfl hd]
      refine ⟨by simp, ?_⟩
      rw [State.raiseRequest_lane, State.putLane_lane_self, Lane.quiet_lane, requestFetch_twice]
      exact replayTakes_of_takeRecord (l := begunLane (s.lane n)) d rfl

end Sys2Proof.Laws
end

section
/-! SUPPORT. How the engine of each mode answers STOP and ABORT (O41, O42). -/

namespace Sys2Proof.Laws

open Sys2Proof.Machine Sys2Proof.Safety

/-! ## What every answer keeps to (R118 to R120) -/

/-- Lane `l` was left by its engine with LRESULT and WRITE_IGNORED as they stand on `k`, and STOPPING with
`e` or STOPPED. -/
structure LaneEnding (e : Ending) (k l : Lane) : Prop where
  lresult : l.lresult = k.lresult
  writeIgnored : l.writeIgnored = k.writeIgnored
  life : l.life = .stopping e ∨ l.life = .stopped

/-- `o` is the answer of an engine that has been told to end with `e` on lane `k`: the lane waits for its
work and nothing is posted, or it is STOPPED and LANE_STOPPED is. -/
structure EngineEnding (e : Ending) (k : Lane) (o : LaneOut) : Prop where
  lresult : o.lane.lresult = k.lresult
  writeIgnored : o.lane.writeIgnored = k.writeIgnored
  life : (o.lane.life = .stopping e ∧ o.posts = [])
    ∨ (o.lane.life = .stopped ∧ o.posts = [(.laneStopped, endingCode e)])

section
variable {e : Ending} {k l : Lane}

theorem EngineEnding.laneEnding {o : LaneOut} (h : EngineEnding e k o) : LaneEnding e k o.lane :=
  ⟨h.lresult, h.writeIgnored, h.life.imp And.left And.left⟩

theorem engineEnding_quiet (hr : l.lresult = k.lresult) (hw : l.writeIgnored = k.writeIgnored)
    (hl : l.life = .stopping e) : EngineEnding e k l.quiet := ⟨hr, hw, .inl ⟨hl, rfl⟩⟩

/-- An answer on a lane that still reads as `k` did. -/
theorem EngineEnding.of_same {o : LaneOut} (h : EngineEnding e l o) (hr : l.lresult = k.lresult)
    (hw : l.writeIgnored = k.writeIgnored) : EngineEnding e k o :=
  ⟨h.lresult.trans hr, h.writeIgnored.trans hw, h.life⟩

theorem value_eq_endingCode (e : Ending) : e.value = endingCode e := by cases e <;> rfl

theorem finishStopping_eq (h : l.life = .stopping e) :
    l.finishStopping = ⟨l.becomeStopped, [(.laneStopped, endingCode e)]⟩ := by
  simp only [Lane.finishStopping, h, value_eq_endingCode]

/-! ## CAPTURE (R35, R36, R43) -/

theorem finishCapture_ending (h : k.life = .stopping e) : EngineEnding e k k.finishCapture := by
  obtain ⟨e', _, _, _, hl, hk⟩ | hk := k.finishCapture_cases
  · cases h.symm.trans hl
    rw [hk, value_eq_endingCode]
    exact ⟨rfl, rfl, .inr ⟨rfl, rfl⟩⟩
  · rw [hk]
    exact engineEnding_quiet rfl rfl h

/-- The lane once ABORT has closed the frame that is open (R35). -/
abbrev abortClosed (k : Lane) (table : Eight Profile) : Lane :=
  match k.cap.frame with
  | some f => k.closeFrame table f .aborted
  | none => k

/-- Closing the frame leaves the assembler with none, and as many records as it had. -/
theorem closeFrame_records (l : Lane) (table : Eight Profile) (f : Frame) (why : Close) :
    (l.closeFrame table f why).cap.frame = none
      ∧ (l.closeFrame table f why).cap.records.length = l.cap.records.length := by
  obtain ⟨w, ⟨_, h⟩ | ⟨_, dec, h⟩⟩ := l.closeFrame_cases table f why <;> rw [h]
  · exact ⟨rfl, rfl⟩
  · exact ⟨rfl, by simp⟩

/-- The close touches the assembler, the FIFO and the matchers alone. -/
theorem abortClosed_eq (k : Lane) (table : Eight Profile) :
    abortClosed k table = { k with
      cap := (abortClosed k table).cap
      fifo := (abortClosed k table).fifo
      matchers := (abortClosed k table).matchers } := by
  unfold abortClosed
  split
  · exact k.closeFrame_eq _ _ _
  · rfl

theorem abortClosed_records (k : Lane) (table : Eight Profile) :
    (abortClosed k table).cap.frame = none
      ∧ (abortClosed k table).cap.records.length = k.cap.records.length := by
  unfold abortClosed
  split
  · exact closeFrame_records _ _ _ _
  · next h => exact ⟨h, rfl⟩

theorem abortCapture_eq (k : Lane) (table : Eight Profile) :
    k.abortCapture table = Lane.finishCapture { abortClosed k table with
      cap := { (abortClosed k table).cap with cstate := .inactive, waiting := false } } := rfl

theorem abortCapture_ending (table : Eight Profile) (h : k.life = .stopping e) :
    EngineEnding e k (k.abortCapture table) := by
  rw [abortCapture_eq]
  refine (finishCapture_ending ?_).of_same ?_ ?_ <;> rw [abortClosed_eq]
  exact h

/-! ## METER (R85, R86) -/

theorem finishMeter_ending (m : MeterUnit) (h : k.life = .stopping e) :
    EngineEnding e k ⟨(k.finishMeter m).lane, (k.finishMeter m).posts⟩ := by
  obtain ⟨_, _, hl, _⟩ | ⟨_, _, _, hk⟩ | ⟨_, hk⟩ := k.finishMeter_cases m
  · cases h.symm.trans hl
  · rw [hk, finishStopping_eq h]
    exact ⟨rfl, rfl, .inr ⟨rfl, rfl⟩⟩
  · rw [hk]
    exact engineEnding_quiet rfl rfl h

theorem stopMeter_armed {m : MeterUnit} (h : m.state = .armed) :
    k.stopMeter m = k.finishMeter { m with state := .result, timeout := none } := by
  simp only [Lane.stopMeter, h]

theorem stopMeter_other {m : MeterUnit} (h : m.state ≠ .armed) : k.stopMeter m = ⟨k, m, []⟩ := by
  unfold Lane.stopMeter
  split
  · next hs => exact absurd hs h
  · rfl

theorem stopMeter_ending (m : MeterUnit) (h : k.life = .stopping e) :
    EngineEnding e k ⟨(k.stopMeter m).lane, (k.stopMeter m).posts⟩ := by
  by_cases hs : m.state = .armed
  · rw [stopMeter_armed hs]
    exact finishMeter_ending _ h
  · rw [stopMeter_other hs]
    exact engineEnding_quiet rfl rfl h

/-- The disposition of a result leaves LRESULT and WRITE_IGNORED (R81). -/
theorem disposeResult_answer (l : Lane) (m : MeterUnit) (u : UnitId) (why : Close) :
    (l.disposeResult m u why).lane.lresult = l.lresult
      ∧ (l.disposeResult m u why).lane.writeIgnored = l.writeIgnored := by
  obtain ⟨_, hk⟩ | ⟨_, _, hk⟩ | ⟨d, ring, _, _, _, hk⟩ | ⟨ring, _, _, _, hk⟩ :=
    l.disposeResult_cases m u why <;> rw [hk]
  · exact ⟨rfl, rfl⟩
  · exact ⟨rfl, rfl⟩
  · exact ⟨by simp, by simp⟩
  · rw [reportDry_eq]
    exact ⟨rfl, rfl⟩

theorem abortMeter_counting {m : MeterUnit} (u : UnitId) (now : Stamp)
    (h : m.state = .armed ∨ m.state = .counting) :
    k.abortMeter m u now = k.endMeasurement m u .aborted now m.startStamp := by
  obtain h | h := h <;> simp only [Lane.abortMeter, h]

theorem abortMeter_other {m : MeterUnit} (u : UnitId) (now : Stamp)
    (h : ¬ (m.state = .armed ∨ m.state = .counting)) : k.abortMeter m u now = ⟨k, m, []⟩ := by
  unfold Lane.abortMeter
  split
  · next hs => exact absurd (.inl hs) h
  · next hs => exact absurd (.inr hs) h
  · rfl

theorem abortMeter_ending (m : MeterUnit) (u : UnitId) (now : Stamp) (h : k.life = .stopping e) :
    LaneEnding e k (k.abortMeter m u now).lane := by
  by_cases hs : m.state = .armed ∨ m.state = .counting
  · obtain ⟨hr, hw⟩ := disposeResult_answer k m u .aborted
    rw [abortMeter_counting u now hs]
    have finish := finishMeter_ending (m.goOn k .aborted now m.startStamp)
      ((k.disposeResult_life m u .aborted).trans h)
    exact (finish.of_same hr hw).laneEnding
  · rw [abortMeter_other u now hs]
    exact ⟨rfl, rfl, .inl h⟩

/-! ## REPLAY (R109 to R111) -/

theorem finishReplay_ending (h : k.life = .stopping e) : EngineEnding e k k.finishReplay := by
  obtain ⟨e', _, _, _, hl, hk⟩ | hk := k.finishReplay_cases
  · cases h.symm.trans hl
    rw [hk, value_eq_endingCode]
    exact ⟨rfl, rfl, .inr ⟨rfl, rfl⟩⟩
  · rw [hk]
    exact engineEnding_quiet rfl rfl h

/-- With neither record held the lane's work is over (R111). -/
theorem finishReplay_over (hl : k.life = .stopping e) (hm : k.regs.lmode = .replay)
    (hc : k.rep.current = none) (hf : k.rep.finished = none) :
    k.finishReplay = ⟨{ k with
        life := .stopped, rep := ⟨.inactive, none, none⟩, ring := k.ring.withdraw },
      [(.laneStopped, endingCode e)]⟩ := by
  unfold Lane.finishReplay
  rw [if_pos ⟨hm, hc, hf⟩]
  simp only [hl, Lane.finishStopping, Lane.becomeStopped, value_eq_endingCode, hc, hf]

/-- With a finished record it waits for the write-back. -/
theorem finishReplay_waits (hf : k.rep.finished.isSome = true) : k.finishReplay = k.quiet :=
  if_neg fun ⟨_, _, h⟩ => by simp [h] at hf

theorem endRecord_ending (status : DescStatus) (h : k.life = .stopping e) :
    EngineEnding e k (k.endRecord status).quiet := by
  obtain ⟨_, hk⟩ | ⟨c, _, hk⟩ := k.endRecord_cases status <;> rw [hk] <;>
    exact engineEnding_quiet rfl rfl h

theorem stopReplay_ending (h : k.life = .stopping e) : EngineEnding e k k.stopReplay := by
  unfold Lane.stopReplay
  split
  · exact endRecord_ending _ h
  · exact endRecord_ending _ h
  · exact engineEnding_quiet rfl rfl h
  · exact engineEnding_quiet rfl rfl h
  · exact finishReplay_ending h

theorem stopReplay_loading (h : k.rep.rstate = .rLoad ∨ k.rep.rstate = .rFill) :
    k.stopReplay = (k.endRecord .stoppedEarly).quiet := by
  obtain h | h := h <;> simp only [Lane.stopReplay, h]

/-- A record being played ends with its pass, but for one whose end is pending (R106, R109). -/
theorem stopReplay_playing {c : ReplayRecord} (hc : k.rep.current = some c)
    (h : k.rep.rstate = .rPlay ∨ k.rep.rstate = .rTrail) :
    k.stopReplay = Lane.quiet { k with rep := { k.rep with
      current := some { c with stopRequested := c.stopRequested || !c.endPending } } } := by
  have asked : (if c.endPending then c else { c with stopRequested := true })
      = { c with stopRequested := c.stopRequested || !c.endPending } := by
    by_cases hp : c.endPending = true
    · rw [if_pos hp, show (c.stopRequested || !c.endPending) = c.stopRequested by simp [hp]]
    · rw [if_neg hp, show (c.stopRequested || !c.endPending) = true by simp [hp]]
  rw [← asked]
  obtain h | h := h <;> simp only [Lane.stopReplay, h, Lane.mapCurrent, hc, Option.map_some]

theorem stopReplay_waiting (h : k.rep.rstate = .rWait) : k.stopReplay = k.finishReplay := by
  simp only [Lane.stopReplay, h]

theorem abortReplay_current {c : ReplayRecord} (hc : k.rep.current = some c) : k.abortReplay
    = (k.endRecord (if c.endPending then .profileChanged else .aborted)).quiet := by
  simp only [Lane.abortReplay, hc]

theorem abortReplay_none (hc : k.rep.current = none) : k.abortReplay = k.finishReplay := by
  simp only [Lane.abortReplay, hc]

theorem abortReplay_ending (h : k.life = .stopping e) : EngineEnding e k k.abortReplay := by
  unfold Lane.abortReplay
  split
  · exact endRecord_ending _ h
  · exact finishReplay_ending h

end

/-! ## The engine of the lane's mode -/

section
variable {s : State} {n : LaneId} {k : Lane}

theorem stopEngine_capture (h : k.regs.lmode = .capture) :
    s.stopEngine n k = s.putLane n k.finishCapture := by
  simp only [State.stopEngine, h]

theorem stopEngine_meter {u : UnitId} (h : k.regs.lmode = .meter)
    (hu : s.meters.heldBy n = some u) :
    s.stopEngine n k = s.putMeter n u (k.stopMeter (s.meters.get u)) := by
  simp only [State.stopEngine, h, hu]

theorem stopEngine_replay (h : k.regs.lmode = .replay) :
    s.stopEngine n k = s.putLane n k.stopReplay := by
  simp only [State.stopEngine, h]

theorem abortEngine_capture (h : k.regs.lmode = .capture) :
    s.abortEngine n k = s.putLane n (k.abortCapture s.table) := by
  simp only [State.abortEngine, h]

theorem abortEngine_meter {u : UnitId} (h : k.regs.lmode = .meter)
    (hu : s.meters.heldBy n = some u) : s.abortEngine n k
      = s.putMeter n u (k.abortMeter (s.meters.get u) u s.time.count) := by
  simp only [State.abortEngine, h, hu]

theorem abortEngine_replay (h : k.regs.lmode = .replay) :
    s.abortEngine n k = s.putLane n k.abortReplay := by
  simp only [State.abortEngine, h]

/-! ## The state an answer leaves -/

/-- As `EngineEnding`, of the state: LANE_STOPPED is in the queue exactly where the lane is STOPPED. -/
abbrev endedOrWaits (e : Ending) (n : LaneId) (k : Lane) (s t : State) : Prop :=
  LaneEnding e k (t.lane n)
    ∧ (((t.lane n).life = .stopping e ∧ t.queue = s.queue)
      ∨ ((t.lane n).life = .stopped
        ∧ t.queue = s.queue.post s.time.count ⟨.laneStopped, some n, endingCode e⟩))

theorem putLane_ending {e : Ending} {o : LaneOut} (h : EngineEnding e k o) :
    endedOrWaits e n k s (s.putLane n o) := by
  obtain ⟨hl, hp⟩ | ⟨hl, hp⟩ := h.life
  · refine ⟨by simpa using h.laneEnding, .inl ⟨by simpa using hl, by simp [hp]⟩⟩
  · refine ⟨by simpa using h.laneEnding, .inr ⟨by simpa using hl, by simp [hp]⟩⟩

theorem putMeter_ending {e : Ending} {u : UnitId} {o : MeterOut}
    (h : EngineEnding e k ⟨o.lane, o.posts⟩) : endedOrWaits e n k s (s.putMeter n u o) :=
  putLane_ending (s := { s with meters := s.meters.set u o.unit }) h

theorem setLane_ending {e : Ending} (h : k.life = .stopping e) :
    endedOrWaits e n k s (s.setLane n k) :=
  putLane_ending (engineEnding_quiet rfl rfl h)

theorem stopEngine_ending {e : Ending} (h : k.life = .stopping e) :
    endedOrWaits e n k s (s.stopEngine n k) := by
  unfold State.stopEngine
  split
  · exact putLane_ending (finishCapture_ending h)
  · split
    · exact putMeter_ending (stopMeter_ending _ h)
    · exact setLane_ending h
  · exact putLane_ending (stopReplay_ending h)
  · exact setLane_ending h

theorem abortEngine_laneEnding {e : Ending} (h : k.life = .stopping e) :
    LaneEnding e k ((s.abortEngine n k).lane n) := by
  unfold State.abortEngine
  split
  · exact (putLane_ending (abortCapture_ending _ h)).1
  · split
    · rw [State.putMeter_lane_self]
      exact abortMeter_ending _ _ _ h
    · exact (setLane_ending h).1
  · exact (putLane_ending (abortReplay_ending h)).1
  · exact (setLane_ending h).1

/-- Off METER no result is disposed of, and LANE_STOPPED is the one event ABORT can post. -/
theorem abortEngine_ending {e : Ending} (h : k.life = .stopping e) (hm : k.regs.lmode ≠ .meter) :
    endedOrWaits e n k s (s.abortEngine n k) := by
  unfold State.abortEngine
  split
  · exact putLane_ending (abortCapture_ending _ h)
  · next hmeter => exact absurd hmeter hm
  · exact putLane_ending (abortReplay_ending h)
  · exact setLane_ending h

theorem stopEngine_bus : (s.stopEngine n k).bus = s.bus := by
  unfold State.stopEngine
  split
  · exact State.putLane_bus _ _ _
  · split
    · exact State.putMeter_bus _ _ _ _
    · rfl
  · exact State.putLane_bus _ _ _
  · rfl

theorem abortEngine_bus : (s.abortEngine n k).bus = s.bus := by
  unfold State.abortEngine
  split
  · exact State.putLane_bus _ _ _
  · split
    · exact State.putMeter_bus _ _ _ _
    · rfl
  · exact State.putLane_bus _ _ _
  · rfl

theorem stopEngine_meters (hm : k.regs.lmode ≠ .meter) : (s.stopEngine n k).meters = s.meters := by
  unfold State.stopEngine
  split
  · exact State.putLane_meters _ _ _
  · next hmeter => exact absurd hmeter hm
  · exact State.putLane_meters _ _ _
  · rfl

theorem abortEngine_meters (hm : k.regs.lmode ≠ .meter) : (s.abortEngine n k).meters = s.meters := by
  unfold State.abortEngine
  split
  · exact State.putLane_meters _ _ _
  · next hmeter => exact absurd hmeter hm
  · exact State.putLane_meters _ _ _
  · rfl

end

/-! ## STOP (R118) -/

/-- The lane that STOP or ABORT hands to its engine. -/
abbrev endingLane (e : Ending) (l : Lane) : Lane :=
  { l with lresult := .accepted, writeIgnored := false, life := .stopping e }

section
variable {s : State} {n : LaneId}

theorem stopLane_running (h : (s.lane n).life = .running) :
    s.stopLane n = (s.stopEngine n (endingLane .stop (s.lane n))).raiseRequest := by
  simp only [State.stopLane, h]
  rfl

theorem stopLane_stopped (h : (s.lane n).life = .stopped) : s.stopLane n
    = (s.setLane n (s.lane n).accept).post ⟨.laneStopped, some n, 1⟩ := by
  simp only [State.stopLane, h]
  rfl

theorem stopLane_stopping {e : Ending} (h : (s.lane n).life = .stopping e) :
    s.stopLane n = s.setLane n (s.lane n).accept := by
  simp only [State.stopLane, h]

theorem stopLane_busy
    (h : (∃ a, (s.lane n).life = .flushing a) ∨ ∃ c, (s.lane n).life = .faulted c) :
    s.stopLane n = s.setLane n ((s.lane n).answer .busy) := by
  obtain ⟨_, h⟩ | ⟨_, h⟩ := h <;> simp only [State.stopLane, h]

/-! ## ABORT (R119) -/

theorem abortLane_working (h : (s.lane n).life = .running ∨ (s.lane n).life = .stopping .stop) :
    s.abortLane n = (s.abortEngine n (endingLane .abort (s.lane n))).raiseRequest := by
  obtain h | h := h <;> simp only [State.abortLane, h] <;> rfl

theorem abortLane_over (h : (s.lane n).life = .stopped ∨ (s.lane n).life = .stopping .abort) :
    s.abortLane n = s.setLane n (s.lane n).accept := by
  obtain h | h := h <;> simp only [State.abortLane, h]

theorem abortLane_faulted {c : FaultCause} (h : (s.lane n).life = .faulted c) :
    s.abortLane n = s.setLane n ((s.lane n).answer .busy) := by
  simp only [State.abortLane, h]

theorem abortLane_flushing {a : Bool} (h : (s.lane n).life = .flushing a) :
    s.abortLane n = (s.putLane n (s.lane n).accept.abortFlush).raiseRequest := by
  simp only [State.abortLane, h]

end

theorem abortFlush_returning {l : Lane} {d : Desc} (h : l.ring.ret = some ⟨d, .flushed⟩) :
    l.abortFlush = Lane.quiet { l with life := .flushing true } := by
  simp only [Lane.abortFlush, h]

theorem abortFlush_over {l : Lane} (h : ∀ d, l.ring.ret ≠ some ⟨d, .flushed⟩) :
    l.abortFlush = l.endFlush := by
  unfold Lane.abortFlush
  split
  · next d hd => exact absurd hd (h d)
  · rfl

/-- Settles O41: the lane's state decides, and on a RUNNING one the engine of its mode answers. -/
theorem stopFinishesOrWaits : Obligations.StopFinishesOrWaits := by
  intro s n arg hp
  dsimp only
  rw [exec_stop hp]
  refine ⟨fun hl => congrArg _ (stopLane_stopped hl), fun e hl => congrArg _ (stopLane_stopping hl),
    fun hl => congrArg _ (stopLane_busy hl), fun hl => ?_⟩
  rw [stopLane_running hl]
  obtain ⟨answer, queue⟩ :=
    stopEngine_ending (s := s) (n := n) (k := endingLane .stop (s.lane n)) rfl
  refine ⟨_, rfl, by simpa using answer.lresult, by simpa using answer.writeIgnored,
    shared_raise (stopEngine_shared _ _ _), others_raise (stopEngine_others _ _ _),
    busKept_raise stopEngine_bus, by simpa [endingCode] using queue,
    fun hm => by simpa using stopEngine_meters (k := endingLane _ _) hm, fun hm => ?_,
    fun u hu hm => ?_, fun hm => ?_⟩
  · rw [stopEngine_capture (k := endingLane _ _) hm]
    exact finishCapture_leaves s n _ hm
  · rw [stopEngine_meter (k := endingLane _ _) hm hu]
    have leaves := putMeter_meterLeaves s n u
      ((endingLane .stop (s.lane n)).stopMeter (s.meters.get u))
    refine ⟨fun hs => ?_, fun hs hr => ?_, fun hs hr => ?_⟩
    · rwa [stopMeter_other (by obtain h | h := hs <;> rw [h] <;> decide)] at leaves ⊢
    · rwa [stopMeter_armed hs, finishMeter_waits (endingLane _ _) _ (.inr hr)] at leaves ⊢
    · rwa [stopMeter_armed hs,
        finishMeter_releases (endingLane _ _) _ rfl hr (stoppedCode_stopping rfl)] at leaves ⊢
  · rw [stopEngine_replay (k := endingLane _ _) hm, State.raiseRequest_lane,
        State.putLane_lane_self]
    refine ⟨fun c hc => ⟨fun hr => ?_, fun hr => ?_⟩, fun hr hc => ⟨fun hf => ?_, fun hf => ?_⟩⟩
    · rw [stopReplay_loading (k := endingLane _ _) hr,
        endRecord_of_current (l := endingLane _ _) _ hc]
      rfl
    · rw [stopReplay_playing (k := endingLane _ _) hc hr]
      rfl
    · rw [stopReplay_waiting (k := endingLane _ _) hr, finishReplay_waits (k := endingLane _ _) hf]
      rfl
    · rw [stopReplay_waiting (k := endingLane _ _) hr,
        finishReplay_over (k := endingLane _ _) rfl hm hc hf]

/-- Settles O42: as O41, and a flush by what stands in the return slot. -/
theorem abortEndsWork : Obligations.AbortEndsWork := by
  intro s n arg hp
  dsimp only
  rw [exec_abort hp]
  refine ⟨fun hl => congrArg _ (abortLane_over hl), fun c hl => congrArg _ (abortLane_faulted hl),
    fun hl => ?_, fun a hl hret => ?_, fun a d hl hret => ?_⟩
  · rw [abortLane_working hl]
    have answer := abortEngine_laneEnding (s := s) (n := n) (k := endingLane .abort (s.lane n)) rfl
    refine ⟨_, rfl, by simpa using answer.lresult, by simpa using answer.writeIgnored,
      shared_raise (abortEngine_shared _ _ _), others_raise (abortEngine_others _ _ _),
      busKept_raise abortEngine_bus, by simpa using answer.life, fun hm => ?_, fun hm => ?_,
      fun u hu hm => ?_, fun hm => ?_⟩
    · obtain ⟨_, ⟨hl, hq⟩ | ⟨hl, hq⟩⟩ :=
        abortEngine_ending (s := s) (n := n) (k := endingLane .abort (s.lane n)) rfl hm
      all_goals
        simp only [State.raiseRequest_meters, State.raiseRequest_lane, State.raiseRequest_queue, hl,
          hq]
        exact ⟨abortEngine_meters (k := endingLane _ _) hm, by simp, by simp [endingCode]⟩
    · obtain ⟨hframe, hrecords⟩ := abortClosed_records (endingLane .abort (s.lane n)) s.table
      refine ⟨hframe, hrecords, ?_⟩
      rw [abortEngine_capture (k := endingLane _ _) hm, abortCapture_eq]
      exact finishCapture_leaves s n _
        ((congrArg (fun k => k.regs.lmode) (abortClosed_eq (endingLane _ _) s.table)).trans hm)
    · rw [abortEngine_meter (k := endingLane _ _) hm hu]
      refine ⟨fun hs => ?_, fun hs => ?_⟩
      · rw [abortMeter_counting u _ hs]
        exact endMeasurement_leaves _ u _ _ s n (fun h => h.2.2 rfl) (stoppedCode_stopping rfl)
      · rw [abortMeter_other u _ (by rw [hs]; decide)]
        exact putMeter_meterLeaves s n u _
    · rw [abortEngine_replay (k := endingLane _ _) hm, State.raiseRequest_lane,
        State.putLane_lane_self]
      refine ⟨fun c hc => ?_, fun hc hf => ?_, fun hc hf => ?_⟩
      · rw [abortReplay_current (k := endingLane _ _) hc,
          endRecord_of_current (l := endingLane _ _) _ hc]
        rfl
      · rw [abortReplay_none (k := endingLane _ _) hc, finishReplay_waits (k := endingLane _ _) hf]
        rfl
      · rw [abortReplay_none (k := endingLane _ _) hc,
          finishReplay_over (k := endingLane _ _) rfl hm hc hf]
  · rw [abortLane_flushing hl, abortFlush_over (l := Lane.accept _) hret]
    exact ⟨_, rfl, putLane_lanePosts s n _⟩
  · rw [abortLane_flushing hl, abortFlush_returning (l := Lane.accept _) hret]
    exact ⟨_, rfl, setLane_laneOnly s n _⟩

end Sys2Proof.Laws
end

section
/-! SUPPORT. What a write to a ring register does (O46): POSTED with the fetch and the end of a flush that
follow from it, and the words of RBASE and RSIZE under the lock. -/

namespace Sys2Proof.Laws

open Sys2Proof.Machine Sys2Proof.Safety

/-! ## The fetch and the end of a flush that follow (R136, R145) -/

/-- A lane that flushes with nothing held, returning or posted: its flush is over (R145). -/
abbrev flushDrained (l : Lane) : Prop :=
  l.life.isFlushing = true ∧ l.ring.slot = .empty ∧ l.ring.ret = none
    ∧ l.ring.posted = l.ring.consumed

/-- A request for a fetch as one update of the slot. -/
theorem requestFetch_slot (l : Lane) : l.requestFetch = { l with ring := { l.ring with
    slot := if l.wantsFetch then .fetching l.ring.nextIndex false [] else l.ring.slot } } := by
  obtain ⟨hw, hk⟩ | ⟨hw, hk⟩ := l.requestFetch_cases
  · rw [hk, if_pos hw]
  · rw [hk, if_neg hw]

theorem withdraw_of_empty {r : Ring} (h : r.slot = .empty) : r.withdraw = r := by
  simp only [Ring.withdraw, h]

/-- A drained flush ends before any fetch. -/
theorem requestFetch_checkFlush_drained {l : Lane} (h : flushDrained l) :
    l.requestFetch.checkFlush = ⟨{ l with life := .stopped }, [(.flushDone, l.ring.flcount)]⟩ := by
  obtain ⟨⟨_, _, _, hne⟩, _⟩ | ⟨_, hk⟩ := l.requestFetch_cases
  · exact absurd h.2.2.2 hne
  · obtain ⟨_, hs, _, _, hq⟩ | ⟨hn, _⟩ := l.checkFlush_cases
    · rw [hk, hq, Lane.becomeStopped, withdraw_of_empty hs]
    · exact absurd h hn

/-- Any other lane goes on, with the fetch it may request. -/
theorem requestFetch_checkFlush_goes_on {l : Lane} (h : ¬ flushDrained l) :
    l.requestFetch.checkFlush = l.requestFetch.quiet := by
  obtain ⟨hl, hs, hr, hp, _⟩ | ⟨_, hq⟩ := l.requestFetch.checkFlush_cases
  · obtain ⟨_, hk⟩ | ⟨_, hk⟩ := l.requestFetch_cases
    · rw [hk] at hs
      cases hs
    · rw [hk] at hl hs hr hp
      exact absurd ⟨hl, hs, hr, hp⟩ h
  · exact hq

/-! ## POSTED (R132) -/

/-- The ring controller once it has taken a write of `w` to POSTED. -/
abbrev postedRing (r : Ring) (w : Word) : Ring :=
  { r with
    posted := w, postRefused := false
    ringEmpty := if w = r.consumed then r.ringEmpty else false }

/-- A write of `w` to POSTED that is refused (R132). -/
abbrev postRefused (r : Ring) (w : Word) : Prop :=
  r.rsize < w - r.consumed ∨ (w - r.consumed = 0 ∧ r.slot.isFetching = true)

theorem writePosted_refused {l : Lane} {w : Word} (h : postRefused l.ring w) :
    l.writePosted w = Lane.quiet { l with ring := { l.ring with postRefused := true } } := if_pos h

theorem writePosted_taken {l : Lane} {w : Word} (h : ¬ postRefused l.ring w) : l.writePosted w
    = (Lane.requestFetch { l with ring := postedRing l.ring w }).checkFlush := if_neg h

theorem exec_postedWrite {s : State} (hp : s.ctl.resetPending = false) (n : LaneId) (w : Word) :
    exec (.postedWrite n w) s = .next (s.putLane n ((s.lane n).writePosted w)).raiseRequest :=
  congrArg Host.Outcome.next (s.hostWrite_taken _ hp)

/-! ## RBASE and RSIZE (R125, R130) -/

/-- The lane takes a write to RBASE or RSIZE: it is STOPPED and its ring controller has no burst requested
or in progress. -/
abbrev ringFree (l : Lane) : Prop :=
  l.life = .stopped ∧ l.ring.slot.isFetching = false ∧ l.ring.ret = none

theorem ringWrite_free {s : State} {n : LaneId} {f : Ring → Ring} (h : ringFree (s.lane n))
    (hf : (f (s.lane n).ring).slot = (s.lane n).ring.slot) :
    s.ringWrite n f = s.setLane n { s.lane n with ring := { f (s.lane n).ring with
      posted := 0, consumed := 0, slot := .empty, ringEmpty := false, postRefused := false } } := by
  obtain ⟨hl, hs, hr⟩ := h
  unfold State.ringWrite
  rw [if_pos ⟨hl, (Ring.busy_iff _).mpr ⟨hs, hr⟩⟩, Ring.reinit_eq _ (hf ▸ hs)]

theorem ringWrite_locked {s : State} {n : LaneId} (f : Ring → Ring) (h : ¬ ringFree (s.lane n)) :
    s.ringWrite n f = s.setLane n { s.lane n with writeIgnored := true } :=
  if_neg fun ⟨hl, hb⟩ => h ⟨hl, (Ring.busy_iff _).mp hb⟩

theorem exec_rbaseWrite {s : State} (hp : s.ctl.resetPending = false) (n : LaneId) (high : Bool)
    (w : Word) : exec (.rbaseWrite n high w) s = .next (s.writeRbase n high w) :=
  congrArg Host.Outcome.next (s.hostWrite_taken _ hp)

theorem exec_rsizeWrite {s : State} (hp : s.ctl.resetPending = false) (n : LaneId) (w : Word) :
    exec (.rsizeWrite n w) s = .next (s.writeRsize n w) :=
  congrArg Host.Outcome.next (s.hostWrite_taken _ hp)

/-- Settles O46: POSTED by R132's refusal and the end of a drained flush, RBASE and RSIZE by the lock. -/
theorem ringRegistersWritten : Obligations.RingRegistersWritten := by
  refine ⟨fun s n w hp => ?_, fun s n high w hp => ?_⟩ <;> dsimp only
  · rw [exec_postedWrite hp]
    refine ⟨fun href => ⟨_, rfl, ?_⟩, fun href => ⟨_, rfl, ?_⟩⟩
    · rw [writePosted_refused href]
      exact setLane_laneOnly s n _
    · obtain ⟨⟨hshared, hothers, hbus, hmeters, hqueue⟩, hlane⟩ :=
        putLane_lanePosts s n ((s.lane n).writePosted w)
      refine ⟨hshared, hothers, hbus, hmeters, ?_⟩
      rw [hlane, hqueue, writePosted_taken href]
      by_cases hd : flushDrained { s.lane n with ring := postedRing (s.lane n).ring w }
      · have unfetched : ¬ ((s.lane n).life.fetches = true ∧ (s.lane n).ring.slot = .empty
            ∧ (s.lane n).ring.ret = none ∧ w ≠ (s.lane n).ring.consumed) :=
          fun ⟨_, _, _, hne⟩ => hne hd.2.2.2
        rw [requestFetch_checkFlush_drained hd, if_neg unfetched]
        exact ⟨rfl, rfl, fun _ => ⟨rfl, rfl⟩, fun hn => absurd hd hn⟩
      · rw [requestFetch_checkFlush_goes_on hd, requestFetch_slot]
        exact ⟨rfl, rfl, fun hy => absurd hy hd, fun _ => ⟨rfl, rfl⟩⟩
  · rw [exec_rbaseWrite hp, exec_rsizeWrite hp, State.writeRbase, State.writeRsize]
    refine ⟨fun hfree => ?_, fun locked c hc => ?_⟩
    · rw [ringWrite_free hfree rfl, ringWrite_free hfree rfl]
      exact ⟨rfl, rfl⟩
    · rw [List.mem_cons, List.mem_singleton] at hc
      obtain rfl | rfl := hc
      · rw [exec_rbaseWrite hp, State.writeRbase, ringWrite_locked _ locked]
      · rw [exec_rsizeWrite hp, State.writeRsize, ringWrite_locked _ locked]

end Sys2Proof.Laws
end

section
/-! SUPPORT. The last word of a burst, and what FETCH_COMPLETE does with it (O53). -/

namespace Sys2Proof.Machine

/-! ## A lane replaced by itself, or twice -/

@[simp] theorem State.setLane_lane (s : State) (n : LaneId) : s.setLane n (s.lane n) = s := by
  fin_cases n <;> rfl

theorem State.setLane_setLane (s : State) (n : LaneId) (k l : Lane) :
    (s.setLane n k).setLane n l = s.setLane n l := by
  fin_cases n <;> rfl

theorem MeterPool.set_get (p : MeterPool) (u : UnitId) : p.set u (p.get u) = p := by
  fin_cases u <;> rfl

/-! ## The bus released -/

@[simp] theorem State.releaseBus_lane (s : State) (n : LaneId) : s.releaseBus.lane n = s.lane n := rfl

@[simp] theorem State.releaseBus_meters (s : State) : s.releaseBus.meters = s.meters := rfl

@[simp] theorem State.releaseBus_queue (s : State) : s.releaseBus.queue = s.queue := rfl

end Sys2Proof.Machine

namespace Sys2Proof.Laws

open Sys2Proof.Machine Sys2Proof.Safety

/-! ## The last word of a burst (R151, R154) -/

/-- The word cycle in progress is the last of burst `b`, whose lane has not been reset, and no soft reset
is pending. -/
structure LastWord (s : State) (b : Burst) : Prop where
  taken : s.ctl.resetPending = false
  owned : s.bus.bstate = .owned b
  served : b.orphan = false
  last : b.remaining ≤ 1

/-- The state in which the lane of burst `b` learns that the burst has ended: it holds the word of a read,
and the bus is released. -/
abbrev wordTaken (s : State) (b : Burst) (data : Word) : State :=
  (s.setLane b.lane ((s.lane b.lane).takeWord b.purpose data)).releaseBus

theorem LastWord.acknowledge {s : State} {b : Burst} (h : LastWord s b) (data : Word) :
    s.acknowledge data = ((wordTaken s b data).burstDone b).raiseRequest := by
  simp only [State.acknowledge, h.owned, h.taken, h.served, h.last, if_true, Bool.false_eq_true,
    if_false]

/-- A burst of lane `n` is over: no other lane and nothing shared is touched, nor the fault record. -/
abbrev burstOver (n : LaneId) (s t : State) : Prop :=
  t.bus.burst = none ∧ sharedKept s t ∧ othersKept n s t ∧ t.bus.fault = s.bus.fault

theorem burstOver_raise {n : LaneId} {s t : State} (hbus : t.bus = s.releaseBus.bus)
    (hshared : sharedKept s t) (hothers : othersKept n s t) : burstOver n s t.raiseRequest := by
  refine ⟨?_, shared_raise hshared, others_raise hothers, ?_⟩
  · rw [State.raiseRequest_burst, hbus]
    rfl
  · rw [State.raiseRequest_bus_fault, hbus]
    rfl

theorem burstOver_setLane (s : State) (n : LaneId) (k : Lane) :
    burstOver n s (s.releaseBus.setLane n k).raiseRequest :=
  burstOver_raise rfl (setLane_shared s.releaseBus n k) (setLane_others s.releaseBus n k)

theorem burstOver_faultLane (s : State) (n : LaneId) (k : Lane) (cause : FaultCause) :
    burstOver n s ((s.setLane n k).releaseBus.faultLane n cause).raiseRequest :=
  burstOver_raise rfl (faultLane_shared (s.setLane n k).releaseBus n cause)
    (othersKept_trans (setLane_others s n k) (faultLane_others (s.setLane n k).releaseBus n cause))

/-! ## The entry to FAULTED (R126) -/

/-- What a list of records adds to the dropped counter, as a sum. -/
theorem foldl_dropped (rs : List Record) (acc : Word) :
    rs.foldl (fun a r => a + 1 + r.droppedBefore) acc
      = acc + (rs.map fun r => 1 + r.droppedBefore).sum := by
  induction rs generalizing acc with
  | nil => simp
  | cons r rs ih => rw [List.foldl_cons, ih, List.map_cons, List.sum_cons]; simp only [add_assoc]

theorem laneFaulted_of_fault {n : LaneId} {s t : State} {cause : FaultCause}
    (hlane : t.lane n = (s.lane n).fault cause) (hmeters : t.meters = s.meters.release n)
    (hqueue : t.queue = s.queue.post s.time.count ⟨.laneFault, some n, cause.code⟩) :
    laneFaulted n cause cause.code s t := by
  refine ⟨?_, fun i => ?_, fun u hu => ?_, fun u hu => ?_, hqueue⟩
  · rw [hlane, Lane.fault, Lane.abandonedCount, foldl_dropped, zero_add, ← add_assoc]
    rfl
  · rw [hlane]
    exact congrArg Matcher.state (Eight.get_fill _ i)
  · rw [hmeters, MeterPool.get_release, if_pos hu]
    rfl
  · rw [hmeters, MeterPool.get_release, if_neg hu]

/-- Whichever words a fetch has read, it is gone (R137). -/
theorem fault_of_fetching {l : Lane} (cause : FaultCause) {i j : Nat} {g g' : Bool}
    {ws ws' : List Word} (h : l.ring.slot = .fetching i g ws) :
    Lane.fault { l with ring := { l.ring with slot := .fetching j g' ws' } } cause
      = l.fault cause := by
  simp only [Lane.fault, Ring.fault, Lane.abandonedCount, h]

/-! ## The spare a fetch brings (R93, R137, R144) -/

/-- A replay engine that waits for a spare (R93). -/
abbrev waitsForSpare (l : Lane) : Prop :=
  l.regs.lmode = .replay ∧ l.life = .running ∧ l.rep.rstate = .rWait ∧ l.rep.finished = none

theorem takeSpare_unheld {l : Lane} (h : ∀ d, l.ring.slot ≠ .held d) : l.takeSpare = l := by
  obtain ⟨d, hd, _⟩ | hk := l.takeSpare_cases
  · exact absurd hd (h d)
  · exact hk

theorem takeSpare_not_waiting {l : Lane} (h : ¬ waitsForSpare l) : l.takeSpare = l := by
  obtain ⟨d, _, hm, hl, hr, hf, _⟩ | hk := l.takeSpare_cases
  · exact absurd ⟨hm, hl, hr, hf⟩ h
  · exact hk

/-- A waiting engine takes the spare, and the next fetch follows (R93, R94, R136). -/
theorem takeSpare_waiting {l : Lane} {d : Desc} (hd : l.ring.slot = .held d)
    (h : waitsForSpare l) :
    replayTakes l d { l.ring with slot := refilled l.ring } l.takeSpare := by
  have taken : l.takeSpare
      = (Lane.takeRecord { l with ring := { l.ring with slot := .empty } } d).requestFetch := by
    unfold Lane.takeSpare
    simp only [hd, if_pos h]
  rw [taken]
  exact replayTakes_of_takeRecord d h.2.1

/-- While FLUSHING the descriptor goes to the return slot, and no engine finds it. -/
theorem takeSpare_takeFetched_flushing {l : Lane} (d : Desc) (h : l.life.isFlushing = true) :
    (l.takeFetched d).takeSpare = { l with ring := { l.ring with
      consumed := l.ring.consumed + 1, slot := .empty, ret := some ⟨d, .flushed⟩ } } := by
  rw [Lane.takeFetched, if_pos h]
  exact takeSpare_unheld fun _ => nofun

theorem takeFetched_holds {l : Lane} (d : Desc) (h : l.life.isFlushing = false) :
    l.takeFetched d = { l with ring := { l.ring with
      consumed := l.ring.consumed + 1, slot := .held d } } := if_neg (by simp [h])

theorem takeSpare_takeFetched_held {l : Lane} (d : Desc) (h : l.life.isFlushing = false)
    (hw : ¬ waitsForSpare l) : (l.takeFetched d).takeSpare = { l with ring := { l.ring with
      consumed := l.ring.consumed + 1, slot := .held d } } := by
  rw [takeFetched_holds d h]
  exact takeSpare_not_waiting hw

theorem takeSpare_takeFetched_waiting {l : Lane} (d : Desc) (hw : waitsForSpare l) :
    replayTakes l d { l.ring with
        consumed := l.ring.consumed + 1
        slot := refilled { l.ring with consumed := l.ring.consumed + 1 } }
      (l.takeFetched d).takeSpare := by
  rw [takeFetched_holds d (by rw [hw.2.1]; rfl)]
  exact takeSpare_waiting rfl hw

/-! ## FETCH_COMPLETE (R137) -/

/-- Lane `l` with the four words of a fetch read. -/
abbrev fetchRead (l : Lane) (i : Nat) (g : Bool) (w0 w1 w2 w3 : Word) : Lane :=
  { l with ring := { l.ring with slot := .fetching i g [w0, w1, w2, w3] } }

/-- The state in which lane `n` learns that its fetch has ended. -/
abbrev fetchEnded (s : State) (n : LaneId) (i : Nat) (g : Bool) (w0 w1 w2 w3 : Word) : State :=
  (s.setLane n (fetchRead (s.lane n) i g w0 w1 w2 w3)).releaseBus

section
variable {s : State} {b : Burst} {i : Nat} {g : Bool} {w0 w1 w2 : Word} (w3 : Word)

theorem wordTaken_fetch (hf : b.purpose = .fetch)
    (hs : (s.lane b.lane).ring.slot = .fetching i g [w0, w1, w2]) : wordTaken s b w3
      = fetchEnded s b.lane i g w0 w1 w2 w3 := by
  simp only [wordTaken, Lane.takeWord, hf, Lane.fetchWord, hs]
  rfl

theorem exec_fetchComplete_elsewhere (hb : s.bus.bstate = .owned b)
    (h : b.purpose ≠ .fetch ∨ b.done ≠ 3) : exec (.fetchComplete w3) s = .next s := by
  have unmet : ¬ (b.purpose = .fetch ∧ b.done = 3) := fun ⟨hf, hd⟩ => h.elim (· hf) (· hd)
  show execFetchComplete w3 s = _
  simp only [execFetchComplete, hb, if_neg unmet]

theorem exec_fetchComplete (h : LastWord s b) (hf : b.purpose = .fetch) (hd : b.done = 3)
    (hs : (s.lane b.lane).ring.slot = .fetching i g [w0, w1, w2]) :
    exec (.fetchComplete w3) s
      = .next ((fetchEnded s b.lane i g w0 w1 w2 w3).fetchDone b.lane).raiseRequest := by
  show execFetchComplete w3 s = _
  simp only [execFetchComplete, h.owned, hf, hd, and_self, if_true, h.acknowledge,
    wordTaken_fetch w3 hf hs, State.burstDone]

end

section
variable {s : State} {n : LaneId} {i : Nat} {g : Bool} {w0 w1 w2 w3 : Word}

theorem fetchEnded_lane :
    (fetchEnded s n i g w0 w1 w2 w3).lane n = fetchRead (s.lane n) i g w0 w1 w2 w3 :=
  State.lane_setLane_self _ _ _

theorem fetchedDesc_fetchEnded : ((fetchEnded s n i g w0 w1 w2 w3).lane n).fetchedDesc
    = some (Desc.ofWords i w0 w1 w2 w3) := by
  rw [fetchEnded_lane]
  rfl

/-- The copy of a descriptor whose owner is DEVICE (R134, R183). -/
abbrev deviceCopy (i : Nat) (w1 w2 w3 : Word) : Desc :=
  ⟨i, .device, w2.extractLsb' 0 8 ++ w1, w3.extractLsb' 0 12⟩

theorem fetchDone_device (device : w0.getLsbD 15 = true) :
    (fetchEnded s n i g w0 w1 w2 w3).fetchDone n = s.releaseBus.setLane n
      ((fetchRead (s.lane n) i g w0 w1 w2 w3).takeFetched (deviceCopy i w1 w2 w3)).takeSpare := by
  unfold State.fetchDone
  simp only [fetchedDesc_fetchEnded, Desc.ofWords, device, if_true]
  rw [fetchEnded_lane]
  exact State.setLane_setLane s.releaseBus n _ _

theorem fetchDone_host (host : w0.getLsbD 15 = false) :
    (fetchEnded s n i g w0 w1 w2 w3).fetchDone n
      = (fetchEnded s n i g w0 w1 w2 w3).faultLane n .descOwner := by
  unfold State.fetchDone
  simp only [fetchedDesc_fetchEnded, Desc.ofWords, host, Bool.false_eq_true, if_false]

/-- A fetched descriptor of the host faults the lane as if no word had been read. -/
theorem faultLane_fetchEnded (cause : FaultCause) {ws : List Word}
    (hs : (s.lane n).ring.slot = .fetching i g ws) :
    ((fetchEnded s n i g w0 w1 w2 w3).faultLane n cause).lane n = (s.lane n).fault cause := by
  rw [State.faultLane, State.post_lane, State.lane_setLane_self, fetchEnded_lane]
  exact fault_of_fetching cause hs

end

/-- Settles O53: the owner decides, and with owner DEVICE the lane's state. -/
theorem fetchCompletes : Obligations.FetchCompletes := by
  intro s b w3 hp hb
  refine ⟨fun i g w0 w1 w2 ho hf hd hr hs => ?_, exec_fetchComplete_elsewhere w3 hb⟩
  rw [exec_fetchComplete w3 ⟨hp, hb, ho, hr⟩ hf hd hs]
  refine ⟨fun device => ⟨_, rfl, ?_⟩, fun host => ⟨_, rfl, ?_⟩⟩
  · rw [fetchDone_device device]
    obtain ⟨hburst, hshared, hothers, hfault⟩ := burstOver_setLane s b.lane
      ((fetchRead (s.lane b.lane) i g w0 w1 w2 w3).takeFetched (deviceCopy i w1 w2 w3)).takeSpare
    refine ⟨hburst, hshared, hothers, by simp, by simp, hfault, fun hl => ?_, fun hl hw => ?_,
      fun hw => ?_⟩ <;>
      rw [State.raiseRequest_lane, State.lane_setLane_self]
    · exact takeSpare_takeFetched_flushing (l := fetchRead _ _ _ _ _ _ _) _ hl
    · exact takeSpare_takeFetched_held (l := fetchRead _ _ _ _ _ _ _) _ hl
        fun ⟨hm, hrun, hw'⟩ => hw ⟨⟨hm, hrun ▸ rfl⟩, hrun, hw'⟩
    · exact takeSpare_takeFetched_waiting (l := fetchRead _ _ _ _ _ _ _) _ ⟨hw.1.1, hw.2⟩
  · rw [fetchDone_host host]
    obtain ⟨hburst, hshared, hothers, hfault⟩ := burstOver_faultLane s b.lane
      (fetchRead (s.lane b.lane) i g w0 w1 w2 w3) .descOwner
    exact ⟨hburst, hshared, hothers, hfault, laneFaulted_of_fault
      ((State.raiseRequest_lane _ _).trans (faultLane_fetchEnded _ hs))
      (State.raiseRequest_meters _) (State.raiseRequest_queue _)⟩

end Sys2Proof.Laws
end

section
/-! SUPPORT. What the owner word of a write-back does on each engine and for the return slot (O54). -/

namespace Sys2Proof.Laws

open Sys2Proof.Machine Sys2Proof.Safety

/-! ## The owner word (R140) -/

/-- The word cycle in progress is the owner word of write-back `b`. -/
structure OwnerWord (s : State) (b : Burst) : Prop extends LastWord s b where
  writes : b.purpose = .writeback
  second : b.done = 1

/-- The owner word of a write-back of lane `n` is acknowledged: the lane posts `es`, and nothing shared and
no other lane is touched. -/
abbrev handedBack (n : LaneId) (es : List Event) (s t : State) : Prop :=
  exec .writeBack s = .next t ∧ t.bus.burst = none ∧ sharedKept s t ∧ othersKept n s t
    ∧ t.bus.fault = s.bus.fault
    ∧ t.queue = es.foldl (fun q e => q.post s.time.count e) s.queue

/-- The acknowledge leaves the lane of `b` as its step `o` says, and posts what `o` posts. -/
abbrev handsBackAs (s : State) (b : Burst) (o : LaneOut) : Prop :=
  ∃ t, handedBack b.lane (eventsOf b.lane o.posts) s t ∧ t.lane b.lane = o.lane

theorem exec_writeBack_elsewhere {s : State} {b : Burst} (hb : s.bus.bstate = .owned b)
    (h : b.purpose ≠ .writeback ∨ b.done ≠ 1) : exec .writeBack s = .next s := by
  have unmet : ¬ (b.purpose = .writeback ∧ b.done = 1) := fun ⟨hw, hd⟩ => h.elim (· hw) (· hd)
  show execWriteBack s = _
  simp only [execWriteBack, hb, if_neg unmet]

section
variable {s : State} {b : Burst}

/-- A write-back reads nothing: the lane learns of it as it stands. -/
theorem OwnerWord.exec_writeBack (h : OwnerWord s b) : exec .writeBack s
    = .next (s.releaseBus.writeBackDone b.lane b.forRing).raiseRequest := by
  have unread : wordTaken s b 0 = s.releaseBus := by
    simp only [wordTaken, h.writes, Lane.takeWord, State.setLane_lane]
  show execWriteBack s = _
  simp only [execWriteBack, h.owned, h.second, h.writes, and_self, if_true,
    h.toLastWord.acknowledge, unread, State.burstDone]

/-- The outcome of the lane's step is what the write-back leaves. -/
theorem OwnerWord.putLane (h : OwnerWord s b) {o : LaneOut}
    (hdone : s.releaseBus.writeBackDone b.lane b.forRing = s.releaseBus.putLane b.lane o) :
    handsBackAs s b o := by
  obtain ⟨hburst, hshared, hothers, hfault⟩ := burstOver_raise (n := b.lane) (s := s)
    (t := s.releaseBus.putLane b.lane o) (State.putLane_bus _ _ _)
    (putLane_shared s.releaseBus b.lane o) (putLane_others s.releaseBus b.lane o)
  obtain ⟨⟨_, _, _, _, hqueue⟩, hlane⟩ := putLane_lanePosts s.releaseBus b.lane o
  exact ⟨_, ⟨by rw [h.exec_writeBack, hdone], hburst, hshared, hothers, hfault, hqueue⟩, hlane⟩

/-! ## Whose write-back it is (R148) -/

theorem OwnerWord.ofReturn (h : OwnerWord s b) (hr : b.forRing = true) {o : LaneOut}
    (ho : (s.lane b.lane).returnDone = o) : handsBackAs s b o :=
  h.putLane (by simp only [State.writeBackDone, State.releaseBus_lane, hr, if_true, ho])

theorem OwnerWord.ofRecord (h : OwnerWord s b) (hr : b.forRing = false)
    (hm : (s.lane b.lane).regs.lmode = .capture) {o : LaneOut}
    (ho : (s.lane b.lane).recordDone = o) : handsBackAs s b o :=
  h.putLane (by
    simp only [State.writeBackDone, State.releaseBus_lane, hr, hm, Bool.false_eq_true, if_false, ho])

theorem OwnerWord.ofReplay (h : OwnerWord s b) (hr : b.forRing = false)
    (hm : (s.lane b.lane).regs.lmode = .replay) {o : LaneOut}
    (ho : (s.lane b.lane).replayDone = o) : handsBackAs s b o :=
  h.putLane (by
    simp only [State.writeBackDone, State.releaseBus_lane, hr, hm, Bool.false_eq_true, if_false, ho])

theorem OwnerWord.ofResult (h : OwnerWord s b) (hr : b.forRing = false)
    (hm : (s.lane b.lane).regs.lmode = .meter) {u : UnitId} (hu : s.meters.heldBy b.lane = some u)
    {o : MeterOut} (ho : (s.lane b.lane).resultDone (s.meters.get u) = o) :
    ∃ t, handedBack b.lane (eventsOf b.lane o.posts) s t ∧ t.lane b.lane = o.lane
      ∧ t.meters = s.meters.set u o.unit := by
  have hdone : s.releaseBus.writeBackDone b.lane b.forRing = s.releaseBus.putMeter b.lane u o := by
    simp only [State.writeBackDone, State.releaseBus_lane, State.releaseBus_meters, hr, hm, hu,
      Bool.false_eq_true, if_false, ho]
  obtain ⟨hburst, hshared, hothers, hfault⟩ := burstOver_raise (n := b.lane) (s := s)
    (t := s.releaseBus.putMeter b.lane u o) (State.putMeter_bus _ _ _ _)
    (putMeter_shared s.releaseBus b.lane u o) (putMeter_others s.releaseBus b.lane u o)
  obtain ⟨_, _, _, hlane, _, _, hqueue⟩ := putMeter_meterLeaves s.releaseBus b.lane u o
  exact ⟨_, ⟨by rw [h.exec_writeBack, hdone], hburst, hshared, hothers, hfault, hqueue⟩, hlane,
    (State.raiseRequest_meters _).trans (State.putMeter_meters _ _ _ _)⟩

end

section
variable {l : Lane}

/-! ## A frame record (R41, R43) -/

/-- The lane once the oldest record has left the list. -/
abbrev recordLeft (l : Lane) (rs : List Record) : Lane := { l with cap := { l.cap with records := rs } }

theorem recordDone_eq {r : Record} {rs : List Record} (h : l.cap.records = r :: rs) :
    l.recordDone = ⟨(recordLeft l rs).finishCapture.lane,
      (.frameRecord, r.seq) :: (recordLeft l rs).finishCapture.posts⟩ := by
  simp only [Lane.recordDone, h]

theorem recordDone_goes_on {r : Record} {rs : List Record} (h : l.cap.records = r :: rs)
    (hwork : l.life = .running ∨ l.cap.frame ≠ none ∨ rs ≠ []) :
    l.recordDone = ⟨recordLeft l rs, [(.frameRecord, r.seq)]⟩ := by
  rw [recordDone_eq h, finishCapture_of_work (recordLeft l rs) hwork]
  rfl

/-- With the last record of a STOPPING lane its work is over. -/
theorem recordDone_over {r : Record} {e : Ending} (h : l.cap.records = [r])
    (hm : l.regs.lmode = .capture) (hl : l.life = .stopping e) (hf : l.cap.frame = none) :
    l.recordDone = ⟨{ l with
        life := .stopped
        cap := { l.cap with cstate := .inactive, waiting := false, records := [] }
        ring := l.ring.withdraw },
      [(.frameRecord, r.seq), (.laneStopped, endingCode e)]⟩ := by
  rw [recordDone_eq h, finishCapture_stopping (recordLeft l []) e hm hl hf rfl]

/-! ## A result (R82, R84) -/

/-- Unit `u` released, and the other one kept (R72). -/
theorem released_of_set {p q : MeterPool} {u : UnitId} (h : q = p.set u .free) :
    (q.get u).claim = none ∧ ∀ v, v ≠ u → q.get v = p.get v := by
  rw [h]
  exact ⟨congrArg MeterUnit.claim (MeterPool.get_set_self p u .free),
    fun v hv => MeterPool.get_set_ne p .free hv⟩

theorem resultDone_eq {r : MeterResult} (m : MeterUnit) (h : l.result = some r) :
    l.resultDone m = ⟨(Lane.finishMeter { l with result := none } m).lane,
      (Lane.finishMeter { l with result := none } m).unit,
      (.meterRecord, r.seq) :: (Lane.finishMeter { l with result := none } m).posts⟩ := by
  simp only [Lane.resultDone, h]

/-- A unit that is still measuring goes on. -/
theorem resultDone_goes_on {r : MeterResult} {m : MeterUnit} (h : l.result = some r)
    (hs : m.state ≠ .result) :
    l.resultDone m = ⟨{ l with result := none }, m, [(.meterRecord, r.seq)]⟩ := by
  rw [resultDone_eq m h, finishMeter_waits _ m (.inl hs)]

/-- A unit that waited in M_RESULT is released, and the lane's work is over. -/
theorem resultDone_over {r : MeterResult} {m : MeterUnit} {code : Word} (h : l.result = some r)
    (hs : m.state = .result) (hc : stoppedCode l.life = some code) : l.resultDone m
      = ⟨{ l with life := .stopped, result := none, ring := l.ring.withdraw }, .free,
          [(.meterRecord, r.seq), (.laneStopped, code)]⟩ := by
  rw [resultDone_eq m h, finishMeter_releases { l with result := none } m hs rfl hc]
  rfl

/-! ## A finished record (R93, R108, R111, R143) -/

/-- The lane once its finished record has been handed back. -/
abbrev finishedLeft (l : Lane) : Lane := { l with rep := { l.rep with finished := none } }

theorem replayDone_eq {f : FinishedRecord} (h : l.rep.finished = some f) : l.replayDone
    = ⟨((finishedLeft l).finishReplay.next Lane.seekSpare).lane, (.replayDone, f.status.code)
        :: ((finishedLeft l).finishReplay.next Lane.seekSpare).posts⟩ := by
  simp only [Lane.replayDone, h]

theorem seekSpare_stopped (hl : l.life = .stopped) : l.seekSpare = l.quiet := by
  have idle : l.life ≠ .running := by simp [hl]
  rw [Lane.seekSpare, takeSpare_not_waiting fun h => idle h.2.1]
  exact if_neg fun h => idle h.1

/-- On a STOPPING lane with no current record the work is over. -/
theorem replayDone_stopping {f : FinishedRecord} {e : Ending} (h : l.rep.finished = some f)
    (hc : l.rep.current = none) (hm : l.regs.lmode = .replay) (hl : l.life = .stopping e) :
    l.replayDone = ⟨{ l with
        life := .stopped, rep := ⟨.inactive, none, none⟩, ring := l.ring.withdraw },
      [(.replayDone, f.status.code), (.laneStopped, endingCode e)]⟩ := by
  rw [replayDone_eq h, finishReplay_over (k := finishedLeft l) hl hm hc rfl, LaneOut.next,
    seekSpare_stopped rfl]
  rfl

/-- On a RUNNING lane the engine seeks its next spare. -/
theorem replayDone_running {f : FinishedRecord} (h : l.rep.finished = some f)
    (hl : l.life = .running) : l.replayDone = ⟨(finishedLeft l).seekSpare.lane,
      (.replayDone, f.status.code) :: (finishedLeft l).seekSpare.posts⟩ := by
  have goes_on : (finishedLeft l).finishReplay = (finishedLeft l).quiet := by
    obtain ⟨e, _, _, _, hs, _⟩ | hk := (finishedLeft l).finishReplay_cases
    · cases hl.symm.trans hs
    · exact hk
  rw [replayDone_eq h, goes_on]
  rfl

/-- An engine in R_WAIT that finds no spare reports a dry ring. -/
theorem seekSpare_unheld (hl : l.life = .running) (hw : l.rep.rstate = .rWait)
    (hf : l.rep.finished = none) (unheld : ∀ d, l.ring.slot ≠ .held d) :
    l.seekSpare = l.reportDry := by
  rw [Lane.seekSpare, takeSpare_unheld unheld]
  exact if_pos ⟨hl, hw, hf⟩

section
variable {f : FinishedRecord} (h : l.rep.finished = some f) (hw : l.rep.rstate = .rWait)
  (hl : l.life = .running)
include h hw hl

theorem replayDone_dry (unheld : ∀ d, l.ring.slot ≠ .held d) (hd : newlyDry l.ring) :
    l.replayDone = ⟨{ finishedLeft l with ring := { l.ring with ringEmpty := true } },
      [(.replayDone, f.status.code), (.ringEmpty, l.ring.consumed)]⟩ := by
  rw [replayDone_running h hl, seekSpare_unheld (l := finishedLeft l) hl hw rfl unheld,
    show (finishedLeft l).reportDry = _ from if_pos hd]

theorem replayDone_waits (unheld : ∀ d, l.ring.slot ≠ .held d) (hd : ¬ newlyDry l.ring) :
    l.replayDone = ⟨finishedLeft l, [(.replayDone, f.status.code)]⟩ := by
  rw [replayDone_running h hl, seekSpare_unheld (l := finishedLeft l) hl hw rfl unheld,
    show (finishedLeft l).reportDry = _ from if_neg hd]
  rfl

/-- A held spare is taken as at START. -/
theorem replayDone_held {d : Desc} (hc : l.rep.current = none) (hm : l.regs.lmode = .replay)
    (hd : l.ring.slot = .held d) : l.replayDone = ⟨(Lane.takeRecord (replayWaiting { l with
      ring := { l.ring with slot := .empty } }) d).requestFetch, [(.replayDone, f.status.code)]⟩ := by
  have waiting : finishedLeft l = replayWaiting l := by simp only [finishedLeft, hc, hw]
  have takes : (replayWaiting l).seekSpare = _ := startReplay_held hm hl hd
  rw [replayDone_running h hl, waiting, takes]
  rfl

end

/-! ## The return slot (R139, R144, R145) -/

/-- FLCOUNT once the descriptor of the return slot has been handed back: it counts a FLUSHED one. -/
abbrev returnCount (r : Ring) (x : Returned) : Word :=
  if x.status = .flushed then r.flcount + 1 else r.flcount

/-- The ring controller once the descriptor of its return slot has been handed back. -/
abbrev returnEmptied (r : Ring) (x : Returned) : Ring :=
  { r with ret := none, flcount := returnCount r x }

theorem withdraw_returnEmptied (r : Ring) (x : Returned) : (returnEmptied r x).withdraw
    = { r.withdraw with ret := none, flcount := returnCount r x } := by
  obtain ⟨rbase, rsize, posted, consumed, slot, ret, ringEmpty, postRefused, flcount⟩ := r
  cases slot with
  | fetching i g ws => cases g <;> rfl
  | _ => rfl

/-- As `returnEmptied`, with the fetch that may follow on lane `l` (R136). -/
abbrev returnRefilled (l : Lane) (x : Returned) : Ring :=
  { returnEmptied l.ring x with
    slot := if l.ring.slot = .empty ∧ l.life.fetches = true then refilled (returnEmptied l.ring x)
            else l.ring.slot }

theorem requestFetch_returnRefilled (l : Lane) (x : Returned) :
    Lane.requestFetch { l with ring := returnEmptied l.ring x }
      = { l with ring := returnRefilled l x } := by
  by_cases hs : l.ring.slot = .empty
  · rw [requestFetch_of_empty { l with ring := returnEmptied l.ring x } hs]
    simp only [returnRefilled, hs, true_and]
  · obtain ⟨⟨_, k, _⟩, _⟩ | ⟨_, hk⟩ :=
      Lane.requestFetch_cases { l with ring := returnEmptied l.ring x }
    · exact absurd k hs
    · rw [hk, returnRefilled, if_neg fun h => hs h.1]

/-- With nothing posted no fetch follows. -/
theorem returnRefilled_dry {x : Returned} (hs : l.ring.slot = .empty)
    (hp : l.ring.posted = l.ring.consumed) : returnRefilled l x = returnEmptied l.ring x := by
  simp [returnRefilled, refilled, hs, hp]

/-- A flush that ABORT ends is over. -/
theorem returnDone_aborted {x : Returned} (h : l.ring.ret = some x) (hl : l.life = .flushing true) :
    l.returnDone = ⟨{ l with
        life := .stopped
        ring := { l.ring.withdraw with ret := none, flcount := returnCount l.ring x } },
      [(.flushDone, returnCount l.ring x)]⟩ := by
  rw [← withdraw_returnEmptied]
  simp only [Lane.returnDone, h, if_pos hl]
  rfl

theorem returnDone_eq {x : Returned} (h : l.ring.ret = some x) (hl : l.life ≠ .flushing true) :
    l.returnDone
      = (Lane.requestFetch { l with ring := returnEmptied l.ring x }).checkFlush := by
  simp only [Lane.returnDone, h, if_neg hl]

/-- A flush with nothing left is over. -/
theorem returnDone_drained {x : Returned} (h : l.ring.ret = some x) (hl : l.life = .flushing false)
    (hs : l.ring.slot = .empty) (hp : l.ring.posted = l.ring.consumed) : l.returnDone
      = ⟨{ l with life := .stopped, ring := returnRefilled l x },
          [(.flushDone, returnCount l.ring x)]⟩ := by
  have drained : flushDrained { l with ring := returnEmptied l.ring x } :=
    ⟨by rw [hl]; rfl, hs, rfl, hp⟩
  rw [returnDone_eq h (by simp [hl]), requestFetch_checkFlush_drained drained,
    returnRefilled_dry hs hp]

theorem returnDone_goes_on {x : Returned} (h : l.ring.ret = some x) (hl : l.life ≠ .flushing true)
    (hn : ¬ (l.life.isFlushing = true ∧ l.ring.slot = .empty ∧ l.ring.posted = l.ring.consumed)) :
    l.returnDone = Lane.quiet { l with ring := returnRefilled l x } := by
  have goes_on : ¬ flushDrained { l with ring := returnEmptied l.ring x } :=
    fun ⟨hf, hs, _, hp⟩ => hn ⟨hf, hs, hp⟩
  rw [returnDone_eq h hl, requestFetch_checkFlush_goes_on goes_on, requestFetch_returnRefilled]

end

/-- Settles O54: by whose write-back it is, and by what is left of the lane's work. -/
theorem writeBackHandsBack : Obligations.WriteBackHandsBack := by
  intro s b hp hb
  refine ⟨fun ho hw hd hr => ?_, exec_writeBack_elsewhere hb⟩
  have word : OwnerWord s b := ⟨⟨hp, hb, ho, hr⟩, hw, hd⟩
  refine ⟨fun r rs hrec hown hm => ⟨fun hwork => ?_, fun e hl hf hrs => ?_⟩,
    fun r hres u hu hown hm => ⟨fun hs => ?_, fun hs => ⟨fun hl => ?_, fun e hl => ?_⟩⟩,
    fun f hfin hcur hown hm => ⟨fun e hl => ?_, fun hl hwait =>
      ⟨fun unheld => ⟨fun hdry hlatch => ?_, fun hnot => ?_⟩, fun d hheld => ?_⟩⟩,
    fun x hret hown => ⟨fun hl => ?_, fun hl hleft => ?_, fun hl => ?_⟩⟩
  · exact word.ofRecord hown hm (recordDone_goes_on hrec hwork)
  · exact word.ofRecord hown hm (recordDone_over (hrs ▸ hrec) hm hl hf)
  · obtain ⟨t, hposts, hlane, hmeters⟩ := word.ofResult hown hm hu (resultDone_goes_on hres hs)
    exact ⟨t, hposts, hlane, hmeters.trans (MeterPool.set_get _ _)⟩
  · obtain ⟨t, hposts, hlane, hmeters⟩ := word.ofResult hown hm hu
      (resultDone_over hres hs (stoppedCode_running hl))
    obtain ⟨hfree, hother⟩ := released_of_set hmeters
    exact ⟨t, hposts, hfree, hother, hlane⟩
  · obtain ⟨t, hposts, hlane, hmeters⟩ := word.ofResult hown hm hu
      (resultDone_over hres hs (stoppedCode_stopping hl))
    obtain ⟨hfree, hother⟩ := released_of_set hmeters
    exact ⟨t, hposts, hfree, hother, hlane⟩
  · exact word.ofReplay hown hm (replayDone_stopping hfin hcur hm hl)
  · exact word.ofReplay hown hm (replayDone_dry hfin hwait hl unheld ⟨hdry, hlatch⟩)
  · exact word.ofReplay hown hm (replayDone_waits hfin hwait hl unheld
      fun ⟨hdry, hlatch⟩ => hnot.elim (· hdry) (by simp [hlatch]))
  · obtain ⟨t, hposts, hlane⟩ := word.ofReplay hown hm (replayDone_held hfin hwait hl hcur hm hheld)
    exact ⟨t, hposts, hlane ▸ replayTakes_of_takeRecord d hl⟩
  · refine word.ofReturn hown (returnDone_goes_on hret ?_ fun ⟨hf, hs, hp⟩ => ?_)
    · obtain hl | ⟨hl, _⟩ := hl <;> intro h <;> simp [h, Life.isFlushing] at hl
    · obtain hl | ⟨_, hn⟩ := hl
      · simp [hl] at hf
      · exact hn ⟨hs, hp⟩
  · exact word.ofReturn hown (returnDone_drained hret hl hleft.1 hleft.2)
  · exact word.ofReturn hown (returnDone_aborted hret hl)

end Sys2Proof.Laws
end

section
/-! SUPPORT. What every command keeps of the requests before an IDLE bus and of the return slot of a FAULTED
lane, and the obligation that rests on it (O48). A command either ends by raising the bus request, or brings no
lane a request it did not present before. -/

namespace Sys2Proof.Machine

open Sys2Proof.Safety

/-! ## The return slot of a FAULTED lane (R126, R146) -/

/-- The step brings no FAULTED lane a descriptor to return. -/
abbrev clearKept (l k : Lane) : Prop := faultedClear l → faultedClear k

/-- A step that leaves the life and the return slot. -/
theorem clearKept_of_same {l k : Lane} (life : k.life = l.life) (ret : k.ring.ret = l.ring.ret) :
    clearKept l k := fun h c hc => ret.trans (h c (life ▸ hc))

theorem faultedClear_of_life {l : Lane} (h : ∀ c, l.life ≠ .faulted c) : faultedClear l :=
  fun c hc => absurd hc (h c)

theorem faultedClear_of_ret {l : Lane} (h : l.ring.ret = none) : faultedClear l := fun _ _ => h

/-- A lane at work is not FAULTED. -/
theorem faultedClear_of_active {l : Lane} (h : l.life.active = true) : faultedClear l :=
  faultedClear_of_life fun c hc => by simp [hc, Life.active] at h

theorem faultedClear_of_stopped {l : Lane} (h : l.life = .stopped) : faultedClear l :=
  faultedClear_of_life fun c => by simp [h]

theorem Lane.requestFetch_clear (l : Lane) : clearKept l l.requestFetch :=
  clearKept_of_same l.requestFetch_life l.requestFetch_ret

theorem Lane.reportDry_clear (l : Lane) : clearKept l l.reportDry.lane := by
  obtain ⟨_, _, h⟩ | ⟨_, h⟩ := l.reportDry_cases <;> rw [h] <;> exact id

theorem Lane.becomeStopped_clear (l : Lane) : faultedClear l.becomeStopped :=
  faultedClear_of_stopped rfl

theorem Lane.finishStopping_clear (l : Lane) : clearKept l l.finishStopping.lane := by
  obtain ⟨_, _, h⟩ | ⟨_, h⟩ := l.finishStopping_cases <;> rw [h]
  · exact fun _ => l.becomeStopped_clear
  · exact id

theorem Lane.checkFlush_clear (l : Lane) : clearKept l l.checkFlush.lane := by
  obtain ⟨_, _, _, _, h⟩ | ⟨_, h⟩ := l.checkFlush_cases <;> rw [h]
  · exact fun _ => l.becomeStopped_clear
  · exact id

theorem Lane.returnDone_clear (l : Lane) : clearKept l l.returnDone.lane := by
  obtain ⟨_, h⟩ | ⟨_, _, l1, rfl, ⟨_, h⟩ | ⟨_, h⟩⟩ := l.returnDone_cases <;> rw [h]
  · exact id
  · exact fun _ => Lane.becomeStopped_clear _
  · exact fun _ => Lane.checkFlush_clear _ (Lane.requestFetch_clear _ (faultedClear_of_ret rfl))

theorem Lane.fetchWord_clear (l : Lane) (data : Word) : clearKept l (l.fetchWord data) := by
  unfold Lane.fetchWord
  split <;> exact id

/-- A descriptor goes to the return slot on a FLUSHING lane alone (R144). -/
theorem Lane.takeFetched_clear (l : Lane) (d : Desc) : clearKept l (l.takeFetched d) := by
  unfold Lane.takeFetched
  split
  · next h =>
    exact fun _ => faultedClear_of_life fun c (hc : l.life = _) => by simp [hc, Life.isFlushing] at h
  · exact id

theorem Lane.writePosted_clear (l : Lane) (w : Word) : clearKept l (l.writePosted w).lane := by
  obtain ⟨_, h⟩ | ⟨_, h⟩ := l.writePosted_cases w <;> rw [h]
  · exact id
  · exact fun k => Lane.checkFlush_clear _ (Lane.requestFetch_clear _ k)

/-! ## The frame assembler -/

theorem Lane.mapOldest_clear (l : Lane) (f : Record → Record) : clearKept l (l.mapOldest f) := by
  obtain ⟨_, h⟩ | ⟨_, _, _, h⟩ := l.mapOldest_cases f <;> rw [h] <;> exact id

theorem Lane.closeFrame_clear (l : Lane) (table : Eight Profile) (f : Frame) (why : Close) :
    clearKept l (l.closeFrame table f why) := by
  rw [l.closeFrame_eq]
  exact id

theorem Lane.closeStuck_clear (l : Lane) (table : Eight Profile) (f : Frame) :
    clearKept l (l.closeStuck table f) := by
  unfold Lane.closeStuck
  dsimp only
  split
  · split <;> exact fun k => Lane.closeFrame_clear _ _ _ _ k
  · exact l.closeFrame_clear _ _ _

theorem Lane.limitClose_clear (l : Lane) (table : Eight Profile) (f : Frame) :
    clearKept l (l.limitClose table f) := by
  unfold Lane.limitClose
  split
  · exact l.closeStuck_clear _ _
  · exact l.closeFrame_clear _ _ _

/-- A frame begins on a RUNNING lane, whatever the ring controller returns (R22, R139). -/
theorem Lane.beginFrame_life (l : Lane) (table : Eight Profile) (e : EdgeStamp) :
    (l.beginFrame table e).lane.life = l.life := by
  unfold Lane.beginFrame
  dsimp only
  split
  · rfl
  · split
    · rfl
    · split
      · exact Lane.requestFetch_life _
      · exact Lane.reportDry_life _

theorem Lane.judgeMarkStart_clear (l : Lane) (table : Eight Profile) (now : Stamp) :
    clearKept l (l.judgeMarkStart table now) := by
  unfold Lane.judgeMarkStart
  split
  · exact id
  · split
    · exact l.closeFrame_clear _ _ _
    · split
      · exact l.closeStuck_clear _ _
      · exact id

theorem Lane.checkFull_clear (l : Lane) (table : Eight Profile) (f : Frame) :
    clearKept l (l.checkFull table f) := by
  unfold Lane.checkFull
  split
  · exact l.closeFrame_clear _ _ _
  · exact id

theorem Lane.endInterval_clear (l : Lane) (table : Eight Profile) (active : Bool) (e : EdgeStamp)
    (f : Frame) : clearKept l (l.endInterval table active e f) := by
  unfold Lane.endInterval
  dsimp only
  split
  · split
    · split
      · exact fun k => Lane.checkFull_clear _ _ _ k
      · exact l.closeFrame_clear _ _ _
    · exact fun k => Lane.checkFull_clear _ _ _ k
  · exact l.checkFull_clear _ _

theorem Lane.finishCapture_clear (l : Lane) : clearKept l l.finishCapture.lane := by
  obtain ⟨_, _, _, _, _, h⟩ | h := l.finishCapture_cases <;> rw [h]
  · exact fun _ => Lane.becomeStopped_clear _
  · exact id

theorem Lane.captureEdge_clear (l : Lane) (table : Eight Profile) (now : Stamp) (active : Bool)
    (e : EdgeStamp) : clearKept l (l.captureEdge table now active e).lane := by
  unfold Lane.captureEdge
  dsimp only
  split
  · split
    · next h =>
      refine fun _ => Lane.judgeMarkStart_clear _ _ _ (faultedClear_of_active ?_)
      rw [Lane.beginFrame_life, show ({ l with cap := _ } : Lane).life = .running from h.2]
      rfl
    · exact id
  · next f _ _ =>
    refine fun k => Lane.finishCapture_clear _ ?_
    have ended := Lane.endInterval_clear { l with cap := { l.cap with waiting := false } } table
      active e f k
    split
    · split
      · exact Lane.closeStuck_clear _ _ _ ended
      · exact ended
    · exact ended
  · exact id

theorem Lane.captureGlitch_clear (l : Lane) (table : Eight Profile) :
    clearKept l (l.captureGlitch table).lane := by
  obtain ⟨_, _, _, _, h⟩ | ⟨_, _, _, _, h⟩ | ⟨_, _, h⟩ | ⟨_, _, h⟩ :=
    l.captureGlitch_cases table <;> rw [h]
  · exact fun k => Lane.finishCapture_clear _ (Lane.limitClose_clear _ _ _ k)
  all_goals exact id

theorem Lane.seeTransition_clear (l : Lane) (table : Eight Profile) (now : Stamp) :
    clearKept l (l.seeTransition table now).lane := by
  unfold Lane.seeTransition
  split
  · dsimp only
    split
    · exact id
    · split
      · exact fun k => Lane.captureGlitch_clear _ _ k
      · exact id
  · exact id

theorem Lane.reachFramePoint_clear (l : Lane) (table : Eight Profile) (f : Frame) :
    clearKept l (l.reachFramePoint table f).lane := by
  rw [l.reachFramePoint_eq]
  split
  · exact id
  · exact fun k => Lane.finishCapture_clear _ (Lane.limitClose_clear _ _ _ k)

theorem Lane.drainWord_clear (l : Lane) : clearKept l l.drainWord :=
  Lane.mapOldest_clear { l with fifo := l.fifo.tail } _

theorem Lane.recordDone_clear (l : Lane) : clearKept l l.recordDone.lane := by
  unfold Lane.recordDone
  split
  · exact id
  · exact fun k => Lane.finishCapture_clear _ k

theorem Lane.headerDone_clear (l : Lane) : clearKept l l.headerDone := by
  unfold Lane.headerDone
  split
  · exact l.mapOldest_clear _
  · exact id
  · exact id

/-! ## The meter units -/

theorem Lane.finishMeter_clear (l : Lane) (u : MeterUnit) : clearKept l (l.finishMeter u).lane := by
  obtain ⟨_, _, _, h⟩ | ⟨_, _, _, h⟩ | ⟨_, h⟩ := l.finishMeter_cases u <;> rw [h]
  · exact fun _ => l.becomeStopped_clear
  · exact l.finishStopping_clear
  · exact id

/-- A measurement ends on a lane at work, whatever the ring controller returns (R80, R139). -/
theorem Lane.endMeasurement_clear (l : Lane) (u : MeterUnit) (unit : UnitId) (why : Close)
    (now edge : Stamp) (work : l.life.active = true) :
    faultedClear (l.endMeasurement u unit why now edge).lane :=
  Lane.finishMeter_clear _ _
    (faultedClear_of_active (by rw [l.disposeResult_life]; exact work))

theorem Lane.meterEdge_clear (l : Lane) (u : MeterUnit) (unit : UnitId) (now : Stamp)
    (active : Bool) (e : EdgeStamp) (work : l.life.active = true) :
    faultedClear (l.meterEdge u unit now active e).lane := by
  have same := faultedClear_of_active work
  unfold Lane.meterEdge
  split
  · split <;> exact same
  · split
    · unfold Lane.endItem
      dsimp only
      split
      · exact l.endMeasurement_clear _ _ _ _ _ work
      · split <;> exact same
    · split <;> exact same
  · exact same

theorem Lane.resultDone_clear (l : Lane) (u : MeterUnit) : clearKept l (l.resultDone u).lane := by
  unfold Lane.resultDone
  split
  · exact id
  · exact Lane.finishMeter_clear { l with result := none } u

/-! ## The replay engine -/

theorem Lane.endRecord_clear (l : Lane) (status : DescStatus) : clearKept l (l.endRecord status) := by
  obtain ⟨_, h⟩ | ⟨_, _, h⟩ := l.endRecord_cases status <;> rw [h] <;> exact id

theorem Lane.finishReplay_clear (l : Lane) : clearKept l l.finishReplay.lane := by
  obtain ⟨_, _, _, _, _, h⟩ | h := l.finishReplay_cases <;> rw [h]
  · exact fun _ => Lane.becomeStopped_clear _
  · exact id

/-- The engine takes a spare on a RUNNING lane alone (R93). -/
theorem Lane.takeSpare_clear (l : Lane) : clearKept l l.takeSpare := by
  obtain ⟨_, _, _, hl, _⟩ | h := l.takeSpare_cases
  · exact fun _ => faultedClear_of_active (by rw [l.takeSpare_life, hl]; rfl)
  · rw [h]; exact id

theorem Lane.seekSpare_clear (l : Lane) : clearKept l l.seekSpare.lane := by
  unfold Lane.seekSpare
  dsimp only
  split
  · exact fun k => Lane.reportDry_clear _ (l.takeSpare_clear k)
  · exact l.takeSpare_clear

theorem Lane.checkHeader_clear (l : Lane) (table : Eight Profile) (c : ReplayRecord) :
    clearKept l (l.checkHeader table c) := by
  unfold Lane.checkHeader
  dsimp only
  split
  · split
    · exact l.endRecord_clear _
    · split
      · split
        · exact id
        · split <;> exact id
      · exact l.endRecord_clear _
  · exact id

theorem Lane.loadDone_clear (l : Lane) (table : Eight Profile) : clearKept l (l.loadDone table) := by
  unfold Lane.loadDone
  split
  · split
    · exact l.checkHeader_clear _ _
    · exact id
  · exact id

theorem Lane.fillWord_clear (l : Lane) (data : Word) : clearKept l (l.fillWord data) := by
  unfold Lane.fillWord
  dsimp only
  split
  · exact id
  · split <;> exact id

theorem Lane.beginInterval_clear (l : Lane) (table : Eight Profile) (c : ReplayRecord) :
    clearKept l (l.beginInterval table c) := by
  unfold Lane.beginInterval
  dsimp only
  split
  · split <;> exact id
  · split
    · split
      · exact fun k => Lane.endRecord_clear _ _ k
      · exact id
    · exact fun k => Lane.endRecord_clear _ _ k

theorem Lane.firstInterval_clear (l : Lane) (table : Eight Profile) (c : ReplayRecord) :
    clearKept l (l.firstInterval table c) := by
  unfold Lane.firstInterval
  split
  · exact l.endRecord_clear _
  · exact l.beginInterval_clear _ _

theorem Lane.endPlaying_clear (l : Lane) (table : Eight Profile) (c : ReplayRecord) :
    clearKept l (l.endPlaying table c) := by
  unfold Lane.endPlaying
  split
  · exact l.endRecord_clear _
  · split
    · exact id
    · exact l.beginInterval_clear _ _

theorem Lane.endTrail_clear (l : Lane) (table : Eight Profile) (c : ReplayRecord) :
    clearKept l (l.endTrail table c) := by
  unfold Lane.endTrail
  dsimp only
  split
  · exact fun k => Lane.endRecord_clear _ _ k
  · split
    · exact fun k => Lane.endRecord_clear _ _ k
    · split
      · exact fun k => Lane.beginInterval_clear _ _ _ k
      · exact id

theorem Lane.replayDone_clear (l : Lane) : clearKept l l.replayDone.lane := by
  unfold Lane.replayDone
  split
  · exact id
  · exact fun k => Lane.seekSpare_clear _ (Lane.finishReplay_clear _ k)

/-- What a changed profile touches is no part of the ring (R67, R68). -/
theorem Lane.profileChange_clear (l : Lane) (ix : ProfileIx) :
    clearKept l ((l.killMatcher ix).profileChanged ix) := by
  rw [Laws.profileChanged_eq, Laws.killMatcher_eq]
  exact id

theorem Lane.takeWord_clear (l : Lane) (p : Purpose) (data : Word) :
    clearKept l (l.takeWord p data) := by
  cases p with
  | fetch => exact l.fetchWord_clear data
  | drain => exact l.drainWord_clear
  | fill => exact l.fillWord_clear data
  | load | decode | header | writeback => exact id

/-! ## Faults and lane commands -/

theorem Lane.fault_clear (l : Lane) (cause : FaultCause) : faultedClear (l.fault cause) :=
  faultedClear_of_ret rfl

theorem Lane.afterReset_clear (line : Level) (stamp : Stamp) (r : LResult) :
    faultedClear (.afterReset line stamp r) := faultedClear_of_stopped rfl

theorem Lane.flush_clear (l : Lane) : clearKept l l.flush.lane := by
  unfold Lane.flush
  split
  · exact id
  · split
    · exact fun _ => Lane.checkFlush_clear _ (Lane.requestFetch_clear _
        (faultedClear_of_life fun _ => nofun))
    · exact id

theorem Lane.abortFlush_clear (l : Lane) : faultedClear l.abortFlush.lane := by
  unfold Lane.abortFlush
  split
  · exact faultedClear_of_life fun _ => nofun
  · exact l.becomeStopped_clear

end Sys2Proof.Machine

namespace Sys2Proof.Laws

open Sys2Proof.Machine Sys2Proof.Safety

/-! ## The request of a lane (R148) -/

/-- What a step that does not raise the bus request keeps of a lane: it is brought no descriptor to return
while FAULTED, and it presents no request where it presented none. -/
structure LaneQuiet (l k : Lane) : Prop where
  clear : clearKept l k
  request : faultedClear l → l.request = none → k.request = none

theorem LaneQuiet.refl (l : Lane) : LaneQuiet l l := ⟨id, fun _ => id⟩

/-- A STOPPED lane with nothing to return presents no request. -/
theorem laneQuiet_of_stopped {l k : Lane} (life : k.life = .stopped) (ret : k.ring.ret = none) :
    LaneQuiet l k :=
  ⟨fun _ => faultedClear_of_stopped life, fun _ _ => by
    simp only [Lane.request, life, Lane.returnRequest, ret]⟩

theorem laneQuiet_afterReset (l : Lane) (line : Level) (stamp : Stamp) (r : LResult) :
    LaneQuiet l (.afterReset line stamp r) := laneQuiet_of_stopped rfl rfl

theorem laneQuiet_skip (l : Lane) (arg : BitVec 12) : LaneQuiet l (l.skip arg) := by
  unfold Lane.skip
  split <;> exact ⟨id, fun _ => id⟩

/-- RECOVER makes a lane STOPPED whose return slot is empty, for it was FAULTED (R123, R146). -/
theorem laneQuiet_recover (l : Lane) : LaneQuiet l l.recover := by
  unfold Lane.recover
  split
  · next c hc =>
    exact ⟨fun _ => faultedClear_of_stopped rfl,
      fun h _ => by simp [Lane.request, Lane.returnRequest, Lane.accept, h c hc]⟩
  · exact ⟨id, fun _ => id⟩

theorem laneQuiet_reachWaitPoint (l : Lane) : LaneQuiet l l.reachWaitPoint := by
  unfold Lane.reachWaitPoint
  split <;> exact ⟨id, fun _ => id⟩

/-- A change of a record's play-out counts, which no transfer of it reads. -/
abbrev playOutOnly (f : ReplayRecord → ReplayRecord) : Prop := ∀ c, f c = { c with
  playing := (f c).playing, tickSeen := (f c).tickSeen, gapLeft := (f c).gapLeft,
  carrierPhase := (f c).carrierPhase, carrierActive := (f c).carrierActive }

/-- The play-out presents no request (R94 to R96). -/
theorem request_mapCurrent (l : Lane) {f : ReplayRecord → ReplayRecord} (h : playOutOnly f) :
    (l.mapCurrent f).request = l.request := by
  have fill : (l.mapCurrent f).fillRequest = l.fillRequest := by
    unfold Lane.fillRequest Lane.mapCurrent
    cases l.rep.current with
    | none => rfl
    | some c => rw [Option.map_some, h c]; rfl
  have load : (l.mapCurrent f).loadRequest = l.loadRequest := by
    unfold Lane.loadRequest Lane.mapCurrent
    cases l.rep.current with
    | none => rfl
    | some c =>
      rw [Option.map_some, h c]
      cases l.rep.rstate <;> rfl
  have engine : (l.mapCurrent f).engineRequest = l.engineRequest := by
    unfold Lane.engineRequest
    rw [fill, load]
    rfl
  unfold Lane.request
  rw [engine]
  rfl

theorem laneQuiet_mapCurrent (l : Lane) {f : ReplayRecord → ReplayRecord} (h : playOutOnly f) :
    LaneQuiet l (l.mapCurrent f) :=
  ⟨id, fun _ hr => (request_mapCurrent l h).trans hr⟩

theorem laneQuiet_tick (l : Lane) : LaneQuiet l l.tick := by
  refine laneQuiet_mapCurrent l fun c => ?_
  unfold ReplayRecord.tick
  split
  · split <;> rfl
  · rfl
  · rfl

/-- A switch of the carrier (R101). -/
theorem laneQuiet_switchCarrier {l : Lane} {c : ReplayRecord} (hc : l.rep.current = some c)
    (cper : Word) :
    LaneQuiet l { l with rep := { l.rep with current := some (c.switchCarrier cper) } } := by
  have switched := laneQuiet_mapCurrent l (f := fun c => c.switchCarrier cper) fun c => by
    unfold ReplayRecord.switchCarrier
    dsimp only
    split <;> rfl
  rwa [Lane.mapCurrent, hc] at switched

/-! ## The state -/

/-- No FAULTED lane is brought a descriptor to return. -/
abbrev lanesClear (s t : State) : Prop := ∀ m, clearKept (s.lane m) (t.lane m)

/-- What a step keeps of the lanes and of the requests before an IDLE bus. -/
structure QuietKept (s t : State) : Prop where
  clear : lanesClear s t
  raised : everyLane faultedClear s → requestRaised s → requestRaised t

theorem QuietKept.refl (s : State) : QuietKept s s := ⟨fun _ => id, fun _ => id⟩

theorem QuietKept.after {s t u : State} (g : QuietKept t u) (h : QuietKept s t) : QuietKept s u :=
  ⟨fun m => g.clear m ∘ h.clear m,
    fun hs hr => g.raised (fun m => h.clear m (hs m)) (h.raised hs hr)⟩

theorem request_of_idle {s : State} (h : s.bus.bstate = .idle) (n : LaneId) :
    s.request n = (s.lane n).request := by
  simp [State.request, BusMaster.serves, BusMaster.burst, h]

/-- Raising the bus request leaves no lane waiting before an IDLE bus (R151). -/
theorem requestRaised_raise (s : State) : requestRaised s.raiseRequest := by
  unfold State.raiseRequest
  split
  · exact nofun
  · next h =>
    intro idle pending n
    cases hn : s.request n with
    | none => rfl
    | some q =>
      exact absurd ⟨idle, pending, List.any_eq_true.mpr ⟨n, Eight.mem_numbers n, by rw [hn]; rfl⟩⟩ h

/-- A step that ends by raising the bus request. -/
theorem quiet_raise {s t : State} (h : lanesClear s t) : QuietKept s t.raiseRequest :=
  ⟨fun m => by rw [State.raiseRequest_lane]; exact h m, fun _ _ => requestRaised_raise t⟩

/-- A step that brings no lane a request. -/
theorem quiet_of_lanes {s t : State} (idle : t.bus.bstate = .idle → s.bus.bstate = .idle)
    (pending : t.ctl.resetPending = s.ctl.resetPending)
    (lanes : ∀ m, LaneQuiet (s.lane m) (t.lane m)) : QuietKept s t := by
  refine ⟨fun m => (lanes m).clear, fun hs hr hi hp n => ?_⟩
  have before := hr (idle hi) (pending ▸ hp) n
  rw [request_of_idle (idle hi)] at before
  rw [request_of_idle hi]
  exact (lanes n).request (hs n) before

theorem quiet_of_eq {s t : State} (hb : t.bus.bstate = s.bus.bstate)
    (hp : t.ctl.resetPending = s.ctl.resetPending) (hl : t.lanes = s.lanes) : QuietKept s t :=
  quiet_of_lanes (hb ▸ id) hp fun m => by
    rw [State.lane, State.lane, hl]
    exact .refl _

theorem lanesClear_of_set {s t : State} {n : LaneId} {l : Lane} (hl : t.lanes = s.lanes.set n l)
    (h : clearKept (s.lane n) l) : lanesClear s t := fun m => by
  rw [State.lane, State.lane, hl, Eight.get_set]
  split
  · next hm => exact hm ▸ h
  · exact id

theorem setLane_clear (s : State) (n : LaneId) {l : Lane} (h : clearKept (s.lane n) l) :
    lanesClear s (s.setLane n l) := lanesClear_of_set rfl h

theorem putLane_clear (s : State) (n : LaneId) {o : LaneOut} (h : clearKept (s.lane n) o.lane) :
    lanesClear s (s.putLane n o) := lanesClear_of_set (State.postAll_lanes _ _ _) h

theorem putMeter_clear (s : State) (n : LaneId) (u : UnitId) {o : MeterOut}
    (h : clearKept (s.lane n) o.lane) : lanesClear s (s.putMeter n u o) :=
  lanesClear_of_set (State.postAll_lanes _ _ _) h

theorem setLane_quiet (s : State) (n : LaneId) {l : Lane} (h : LaneQuiet (s.lane n) l) :
    QuietKept s (s.setLane n l) :=
  quiet_of_lanes id rfl fun m => by
    rw [State.lane_setLane]
    split
    · next hm => exact hm ▸ h
    · exact .refl _

theorem putLane_quiet (s : State) (n : LaneId) {o : LaneOut} (h : LaneQuiet (s.lane n) o.lane) :
    QuietKept s (s.putLane n o) :=
  (quiet_of_eq (by simp) (by simp) (State.postAll_lanes _ _ _)).after (setLane_quiet s n h)

theorem hostWrite_quiet (s : State) {f : State → State} (h : QuietKept s (f s)) :
    QuietKept s (s.hostWrite f) := by
  obtain ⟨_, k⟩ | ⟨_, k⟩ := s.hostWrite_cases f <;> rw [k]
  · exact .refl s
  · exact h

/-! ## The front end and the lane commands -/

theorem acceptEdge_clear (s : State) (n : LaneId) (c : Change) : lanesClear s (s.acceptEdge n c) := by
  unfold State.acceptEdge
  dsimp only
  split
  · next work =>
    split
    · exact putLane_clear _ _ fun k => Lane.captureEdge_clear _ _ _ _ _ k
    · split
      · exact putMeter_clear _ _ _ fun _ => Lane.meterEdge_clear _ _ _ _ _ _ work
      · exact setLane_clear _ _ id
    · exact setLane_clear _ _ id
  · exact setLane_clear _ _ id

/-- The engine begins on a RUNNING lane (R117). -/
theorem beginEngine_clear (s : State) (n : LaneId) {l : Lane} (run : l.life = .running) :
    lanesClear s (s.beginEngine n l) := by
  have clear : faultedClear l := faultedClear_of_active (by rw [run]; rfl)
  unfold State.beginEngine
  split
  · refine setLane_clear _ _ fun _ => Lane.requestFetch_clear _ ?_
    unfold Lane.startCapture Lane.reachWaitPoint
    dsimp only
    split
    · split <;> exact clear
    · exact clear
  · split
    · exact lanesClear_of_set rfl fun _ => l.requestFetch_clear clear
    · exact fun _ => id
  · exact putLane_clear _ _ fun _ => Lane.requestFetch_clear _ (Lane.seekSpare_clear _ clear)
  · exact fun _ => id

theorem startLane_quiet (s : State) (n : LaneId) : QuietKept s (s.startLane n) := by
  unfold State.startLane
  dsimp only
  split
  · exact quiet_raise (beginEngine_clear _ _ rfl)
  · exact setLane_quiet _ _ ⟨id, fun _ => id⟩

/-- A lane whose engine has been told to end is STOPPING or STOPPED (R118 to R120). -/
theorem lanesClear_of_ending {s t : State} {n : LaneId} {e : Ending} {k : Lane}
    (others : othersKept n s t) (h : LaneEnding e k (t.lane n)) : lanesClear s t := fun m => by
  by_cases hm : m = n
  · subst hm
    exact fun _ => faultedClear_of_life fun c hc => by simpa [hc] using h.life
  · rw [others m hm]
    exact id

theorem stopLane_quiet (s : State) (n : LaneId) : QuietKept s (s.stopLane n) := by
  unfold State.stopLane
  dsimp only
  split
  · exact quiet_raise (lanesClear_of_ending (stopEngine_others s n _) (stopEngine_ending rfl).1)
  · exact setLane_quiet _ _ ⟨id, fun _ => id⟩
  · exact putLane_quiet _ _ ⟨id, fun _ => id⟩
  · exact setLane_quiet _ _ ⟨id, fun _ => id⟩
  · exact setLane_quiet _ _ ⟨id, fun _ => id⟩

theorem abortLane_quiet (s : State) (n : LaneId) : QuietKept s (s.abortLane n) := by
  unfold State.abortLane
  dsimp only
  split
  · exact quiet_raise
      (lanesClear_of_ending (abortEngine_others s n _) (abortEngine_laneEnding rfl))
  · exact quiet_raise
      (lanesClear_of_ending (abortEngine_others s n _) (abortEngine_laneEnding rfl))
  · exact setLane_quiet _ _ ⟨id, fun _ => id⟩
  · exact setLane_quiet _ _ ⟨id, fun _ => id⟩
  · exact quiet_raise (putLane_clear _ _ fun _ => Lane.abortFlush_clear _)
  · exact setLane_quiet _ _ ⟨id, fun _ => id⟩

theorem flush_quiet (s : State) (n : LaneId) :
    QuietKept s (s.putLane n (s.lane n).flush).raiseRequest :=
  quiet_raise (putLane_clear _ _ (s.lane n).flush_clear)

theorem orphan_idle {b : BusMaster} {n : LaneId} (h : (b.orphan n).bstate = .idle) :
    b.bstate = .idle := by
  unfold BusMaster.orphan at h
  split at h
  · split at h
    · cases h
    · exact h
  · exact h

theorem resetLane_quiet (s : State) (n : LaneId) (r : LResult) : QuietKept s (s.resetLane n r) :=
  (setLane_quiet _ _ (laneQuiet_afterReset _ _ _ _)).after
    (quiet_of_lanes orphan_idle rfl fun _ => .refl _)

theorem laneCommand_quiet (s : State) (n : LaneId) (code : BitVec 4) (arg : BitVec 12) :
    QuietKept s (s.laneCommand n code arg) := by
  unfold State.laneCommand
  split
  · exact startLane_quiet _ _
  · split
    · exact stopLane_quiet _ _
    · split
      · exact abortLane_quiet _ _
      · split
        · exact setLane_quiet _ _ (laneQuiet_skip _ _)
        · split
          · exact flush_quiet _ _
          · split
            · exact setLane_quiet _ _ (laneQuiet_recover _)
            · split
              · exact resetLane_quiet _ _ _
              · exact setLane_quiet _ _ ⟨id, fun _ => id⟩

/-! ## Registers of a lane's block -/

/-- The configuration of a STOPPED lane is no part of its request (R125, R148). -/
theorem lockedWrite_quiet (s : State) (n : LaneId) (f : Lane → Lane)
    (hl : ∀ l, (f l).life = l.life) (hr : ∀ l, (f l).ring = l.ring) :
    QuietKept s (s.lockedWrite n f) := by
  unfold State.lockedWrite
  dsimp only
  split
  · next stopped =>
    refine setLane_quiet _ _ ⟨clearKept_of_same (hl _) (by rw [hr]), fun _ h => ?_⟩
    rw [Lane.request, stopped] at h
    simpa [Lane.request, hl, stopped, Lane.returnRequest, hr] using h
  · exact setLane_quiet _ _ ⟨id, fun _ => id⟩

/-- A ring register is written while the return slot is empty (R130). -/
theorem ringWrite_quiet (s : State) (n : LaneId) (f : Ring → Ring) (hf : ∀ r, (f r).ret = r.ret) :
    QuietKept s (s.ringWrite n f) := by
  unfold State.ringWrite
  dsimp only
  split
  · next h =>
    obtain ⟨stopped, idle⟩ := h
    obtain ⟨_, ret⟩ := (Ring.busy_iff _).mp idle
    exact setLane_quiet _ _ (laneQuiet_of_stopped stopped ((hf _).trans ret))
  · exact setLane_quiet _ _ ⟨id, fun _ => id⟩

theorem writePostedReg_quiet (s : State) (n : LaneId) (w : Word) :
    QuietKept s (s.writePostedReg n w) :=
  quiet_raise (putLane_clear _ _ (Lane.writePosted_clear _ _))

theorem writeLaneReg_quiet (s : State) (n : LaneId) (r : Nat) (w : Word) :
    QuietKept s (s.writeLaneReg n r w) := by
  unfold State.writeLaneReg
  split
  all_goals first
    | exact lockedWrite_quiet _ _ _ (fun _ => rfl) fun _ => rfl
    | exact ringWrite_quiet _ _ _ fun _ => rfl
    | exact writePostedReg_quiet _ _ _
    | exact laneCommand_quiet _ _ _ _
    | exact .refl s

/-! ## The bus and the resets -/

/-- With no choice no lane presents a request (R152). -/
theorem choose_eq_none {s : State} (h : s.choose = none) (n : LaneId) : s.request n = none := by
  have ordered : n ∈ s.bus.order :=
    List.mem_map.mpr ⟨n - s.bus.ptr, Eight.mem_numbers _, add_sub_cancel _ _⟩
  unfold State.choose at h
  rw [Option.or_eq_none_iff] at h
  simpa using List.find?_eq_none.mp h.2 n ordered

theorem choose_eq_some {s : State} {n : LaneId} (h : s.choose = some n) : s.request n ≠ none := by
  unfold State.choose at h
  rw [Option.or_eq_some_iff] at h
  intro hn
  obtain h | ⟨_, h⟩ := h
  · simpa [hn] using List.find?_some h
  · simpa [hn] using List.find?_some h

/-- The grant of a fetch touches the spare slot alone (R136). -/
theorem beginBurst_clear (s : State) (n : LaneId) (q : Request) :
    lanesClear s (s.beginBurst n q) := by
  unfold State.beginBurst
  dsimp only
  split
  · refine lanesClear_of_set rfl (clearKept_of_same rfl ?_)
    dsimp only
    unfold Ring.grantFetch
    split <;> rfl
  · exact fun _ => id

/-- The bus is released with no request before it (R151). -/
theorem grant_quiet (s : State) : QuietKept s s.grant := by
  obtain ⟨_, h⟩ | ⟨asked, none, h⟩ | ⟨n, _, chosen, silent, h⟩ | ⟨n, q, _, _, _, h⟩ :=
    grant_cases s <;> rw [h]
  · exact .refl s
  · refine ⟨fun _ => id, fun _ _ idle _ n => ?_⟩
    rw [request_of_idle idle, ← choose_eq_none none n]
    simp [State.request, BusMaster.serves, BusMaster.burst, asked]
  · exact absurd silent (choose_eq_some chosen)
  · exact ⟨beginBurst_clear s n q, fun _ _ => nofun⟩

theorem faultLane_clear (s : State) (n : LaneId) (c : FaultCause) :
    lanesClear s (s.faultLane n c) := lanesClear_of_set rfl fun _ => Lane.fault_clear _ c

theorem fetchDone_clear (s : State) (n : LaneId) : lanesClear s (s.fetchDone n) := by
  unfold State.fetchDone
  dsimp only
  split
  · exact fun _ => id
  · split
    · exact setLane_clear _ _ fun k => Lane.takeSpare_clear _ (Lane.takeFetched_clear _ _ k)
    · exact faultLane_clear _ _ _

theorem writeBackDone_clear (s : State) (n : LaneId) (forRing : Bool) :
    lanesClear s (s.writeBackDone n forRing) := by
  unfold State.writeBackDone
  dsimp only
  split
  · exact putLane_clear _ _ (Lane.returnDone_clear _)
  · split
    · exact putLane_clear _ _ (Lane.recordDone_clear _)
    · split
      · exact putMeter_clear _ _ _ (Lane.resultDone_clear _ _)
      · exact fun _ => id
    · exact putLane_clear _ _ (Lane.replayDone_clear _)
    · exact fun _ => id

theorem burstDone_clear (s : State) (b : Burst) : lanesClear s (s.burstDone b) := by
  unfold State.burstDone
  dsimp only
  split
  · exact fetchDone_clear _ _
  · exact setLane_clear _ _ (Lane.mapOldest_clear _ _)
  · exact setLane_clear _ _ (Lane.headerDone_clear _)
  · exact writeBackDone_clear _ _ _
  · exact setLane_clear _ _ (Lane.loadDone_clear _ _)
  · exact fun _ => id
  · exact fun _ => id

/-- A reset leaves every lane STOPPED with nothing to return (R128). -/
theorem reset_quiet {s t : State} (line : LaneId → Lane → Level) (stamp : Stamp)
    (hl : t.lanes = s.lanes.mapIdx fun n l => .afterReset (line n l) stamp .none) :
    QuietKept s t := by
  have lane (m : LaneId) : t.lane m = .afterReset (line m (s.lane m)) stamp .none := by
    rw [State.lane, State.lane, hl, Eight.get_mapIdx]
  refine ⟨fun m => ?_, fun _ _ idle _ m => ?_⟩
  · rw [lane]
    exact fun _ => Lane.afterReset_clear _ _ _
  · rw [request_of_idle idle, lane]
    rfl

theorem completeSoftReset_quiet (s : State) : QuietKept s s.completeSoftReset :=
  reset_quiet (fun _ l => l.line) s.time.count rfl

theorem deviceReset_quiet (s : State) : QuietKept s s.deviceReset :=
  reset_quiet (fun _ l => l.line) 0 rfl

/-- A soft reset that waits for the word cycle in progress leaves the bus OWNED (R160, R179). -/
theorem softReset_quiet (s : State) : QuietKept s s.softReset := by
  unfold State.softReset
  split
  · exact ⟨fun _ => id, fun _ _ => nofun⟩
  · exact completeSoftReset_quiet s

theorem acknowledge_quiet (s : State) (data : Word) : QuietKept s (s.acknowledge data) := by
  have word (b : Burst) := setLane_clear s b.lane ((s.lane b.lane).takeWord_clear b.purpose data)
  obtain ⟨_, h⟩ | ⟨b, _, ⟨_, h⟩ | ⟨_, _, h⟩ | ⟨_, _, _, h⟩ | ⟨_, _, _, h⟩⟩ :=
    acknowledge_cases s data <;> rw [h]
  · exact .refl s
  · exact completeSoftReset_quiet s
  · exact quiet_raise fun _ => id
  · exact quiet_raise fun m => burstDone_clear _ b m ∘ word b m
  · exact ⟨word b, fun _ _ => nofun⟩

theorem failCycle_quiet (s : State) (e : Bool) : QuietKept s (s.failCycle e) := by
  obtain ⟨_, h⟩ | ⟨b, _, ⟨_, h⟩ | ⟨_, s1, rfl, ⟨_, h⟩ | ⟨_, h⟩⟩⟩ := failCycle_cases s e <;> rw [h]
  · exact .refl s
  · exact completeSoftReset_quiet s
  · exact quiet_raise fun _ => id
  · exact quiet_raise (faultLane_clear _ _ _)

/-! ## Device control and the profile table -/

theorem profileChanged_lane (s : State) (ix : ProfileIx) (m : LaneId) :
    (s.profileChanged ix).lane m = ((s.lane m).killMatcher ix).profileChanged ix :=
  Eight.get_mapIdx _ _ _

theorem tableChanged_quiet (s : State) (ix : ProfileIx) (p : Profile) :
    QuietKept s (tableChanged s ix p) :=
  quiet_raise fun m => by
    rw [profileChanged_lane]
    exact (s.lane m).profileChange_clear ix

theorem commitProfile_quiet (s : State) (ix : ProfileIx) : QuietKept s (s.commitProfile ix) := by
  obtain ⟨_, h⟩ | ⟨_, h⟩ := commitProfile_cases s ix <;> rw [h]
  · exact tableChanged_quiet s ix _
  · exact quiet_of_eq rfl rfl rfl

theorem profileCommand_quiet (s : State) (code : BitVec 4) (ix : ProfileIx) :
    QuietKept s (s.profileCommand code ix) := by
  unfold State.profileCommand
  split
  · exact commitProfile_quiet _ _
  · split
    · exact tableChanged_quiet s ix .empty
    · split <;> exact quiet_of_eq rfl rfl rfl

theorem clock_idle {b : BusMaster} {clocks : Nat} (h : (b.clock clocks).bstate = .idle) :
    b.bstate = .idle := by
  unfold BusMaster.clock at h
  split at h
  · cases h
  · exact h

/-- Core clocks age the word cycle in progress (R155). -/
theorem aged_quiet (s : State) (clocks : Nat) :
    QuietKept s { s with bus := s.bus.clock clocks } :=
  quiet_of_lanes clock_idle rfl fun _ => .refl _

theorem tick_quiet (s : State) : QuietKept s s.tick :=
  quiet_of_lanes id rfl fun m => by
    rw [tick_lane]
    exact laneQuiet_tick _

theorem coreClock_quiet (s : State) : QuietKept s s.coreClock := by
  obtain ⟨_, h⟩ | ⟨_, _, h⟩ | ⟨_, _, h⟩ := coreClock_cases s <;> rw [h]
  · exact aged_quiet s 1
  · exact quiet_of_lanes clock_idle rfl fun _ => .refl _
  · exact (tick_quiet _).after (aged_quiet s 1)

theorem writeControl_quiet (s : State) (w : Word) : QuietKept s (s.writeControl w) := by
  unfold State.writeControl
  split
  · exact quiet_of_eq rfl rfl rfl
  · split
    · exact quiet_of_eq rfl rfl rfl
    · split <;> exact quiet_of_eq rfl rfl rfl

theorem writePresc_quiet (s : State) (w : Word) : QuietKept s (s.writePresc w) := by
  unfold State.writePresc
  split <;> exact quiet_of_eq rfl rfl rfl

theorem writeResplim_quiet (s : State) (w : Word) : QuietKept s (s.writeResplim w) := by
  unfold State.writeResplim
  split <;> exact quiet_of_eq rfl rfl rfl

theorem writeIrqctl_quiet (s : State) (w : Word) : QuietKept s (s.writeIrqctl w) := by
  unfold State.writeIrqctl
  split <;> exact quiet_of_eq rfl rfl rfl

theorem globalCommand_quiet (s : State) (code : BitVec 4) : QuietKept s (s.globalCommand code) := by
  unfold State.globalCommand
  split
  · exact quiet_of_eq rfl rfl rfl
  · split
    · exact quiet_of_eq rfl rfl rfl
    · split
      · exact softReset_quiet s
      · exact quiet_of_eq rfl rfl rfl

theorem writeGlobalReg_quiet (s : State) (o : Nat) (w : Word) :
    QuietKept s (s.writeGlobalReg o w) := by
  unfold State.writeGlobalReg
  split
  all_goals first
    | exact writeControl_quiet _ _
    | exact writePresc_quiet _ _
    | exact writeResplim_quiet _ _
    | exact globalCommand_quiet _ _
    | exact writeIrqctl_quiet _ _
    | exact profileCommand_quiet _ _ _
    | exact quiet_of_eq rfl rfl rfl

theorem writeWindow_quiet (s : State) (offset : BitVec 10) (w : Word) :
    QuietKept s (s.writeWindow offset w) := by
  unfold State.writeWindow
  dsimp only
  split
  · exact writeGlobalReg_quiet _ _ _
  · split
    · exact quiet_of_eq rfl rfl rfl
    · split
      · exact writeLaneReg_quiet _ _ _ _
      · exact .refl s

/-! ## Every command -/

/-- A report that is taken where it is due, and changes nothing elsewhere (log 1). -/
theorem quiet_of_due {due : Prop} [Decidable due] {s t u : State}
    (h : (if due then .next u else .next s : Host.Outcome State Fault Refusal) = .next t)
    (hu : QuietKept s u) : QuietKept s t := by
  split at h <;> cases h
  · exact hu
  · exact .refl s

/-- Every command raises the bus request, or brings no lane a request. -/
theorem exec_quiet (c : Instr) (s t : State) (h : exec c s = .next t) : QuietKept s t := by
  cases c with
  | transition n =>
    cases h
    exact quiet_raise (putLane_clear _ _ (Lane.seeTransition_clear _ _ _))
  | edgeAccepted n =>
    simp only [exec, execEdgeAccepted] at h
    split at h
    · exact quiet_of_due h (quiet_raise (acceptEdge_clear _ _ _))
    · cases h; exact .refl s
  | waitPointReached n => exact quiet_of_due h (setLane_quiet _ _ (laneQuiet_reachWaitPoint _))
  | gapPointReached n =>
    simp only [exec, execGapPointReached] at h
    split at h
    · exact quiet_of_due h (quiet_raise (putLane_clear _ _ (Lane.reachFramePoint_clear _ _ _)))
    · cases h; exact .refl s
  | markPointReached n =>
    simp only [exec, execMarkPointReached] at h
    split at h
    · exact quiet_of_due h (quiet_raise (putLane_clear _ _ (Lane.reachFramePoint_clear _ _ _)))
    · cases h; exact .refl s
  | tlimitExpiry n =>
    simp only [exec, execTlimitExpiry] at h
    split at h
    · exact quiet_of_due h (quiet_raise (putLane_clear _ _ fun k =>
        Lane.finishCapture_clear _ (Lane.closeFrame_clear _ _ _ _ k)))
    · cases h; exact .refl s
  | mtimeoutExpiry n =>
    simp only [exec, execMtimeoutExpiry] at h
    split at h <;> cases h
    · next u hu =>
      obtain ⟨⟨_, work⟩, _⟩ := (timedOutUnit_eq_some s n u).mp hu
      exact quiet_raise (putMeter_clear _ _ _ fun _ =>
        Lane.endMeasurement_clear _ _ _ _ _ _ work)
    · exact .refl s
  | firstIntervalBegin n =>
    simp only [exec, execFirstIntervalBegin] at h
    split at h
    · exact quiet_of_due h (quiet_raise (setLane_clear _ _ (Lane.firstInterval_clear _ _ _)))
    · cases h; exact .refl s
  | intervalEnd n =>
    simp only [exec, execIntervalEnd] at h
    split at h
    · exact quiet_of_due h (quiet_raise (setLane_clear _ _ (Lane.endPlaying_clear _ _ _)))
    · cases h; exact .refl s
  | trailingGapEnd n =>
    simp only [exec, execTrailingGapEnd] at h
    split at h
    · exact quiet_of_due h (quiet_raise (setLane_clear _ _ (Lane.endTrail_clear _ _ _)))
    · cases h; exact .refl s
  | carrierPhase n =>
    simp only [exec, execCarrierPhase] at h
    split at h
    · next hc => exact quiet_of_due h (setLane_quiet _ _ (laneQuiet_switchCarrier hc _))
    · cases h; exact .refl s
  | deviceReset => cases h; exact deviceReset_quiet s
  | baseTick => exact quiet_of_due h ((tick_quiet _).after (aged_quiet s _))
  | holdoffExpiry => exact quiet_of_due h (quiet_of_eq rfl rfl rfl)
  | busGrant => cases h; exact grant_quiet s
  | wordAck data => cases h; exact acknowledge_quiet s data
  | fetchComplete data =>
    simp only [exec, execFetchComplete] at h
    split at h
    · exact quiet_of_due h (acknowledge_quiet s data)
    · cases h; exact .refl s
  | writeBack =>
    simp only [exec, execWriteBack] at h
    split at h
    · exact quiet_of_due h (acknowledge_quiet s 0)
    · cases h; exact .refl s
  | errorReply => cases h; exact failCycle_quiet s true
  | noResponse => exact quiet_of_due h (failCycle_quiet s false)
  | softResetComplete => exact quiet_of_due h (completeSoftReset_quiet s)
  | start n a => cases h; exact hostWrite_quiet s (startLane_quiet s n)
  | stop n a => cases h; exact hostWrite_quiet s (stopLane_quiet s n)
  | abort n a => cases h; exact hostWrite_quiet s (abortLane_quiet s n)
  | skip n a => cases h; exact hostWrite_quiet s (setLane_quiet _ _ (laneQuiet_skip _ _))
  | flush n a => cases h; exact hostWrite_quiet s (flush_quiet s n)
  | recover n a => cases h; exact hostWrite_quiet s (setLane_quiet _ _ (laneQuiet_recover _))
  | reset n a => cases h; exact hostWrite_quiet s (resetLane_quiet s n _)
  | lcmdBadCommand n code a =>
    simp only [exec, execLcmdBadCommand] at h
    split at h <;> cases h
    · exact .refl s
    · exact hostWrite_quiet s (setLane_quiet _ _ ⟨id, fun _ => id⟩)
  | snap => cases h; exact hostWrite_quiet s (quiet_of_eq rfl rfl rfl)
  | note => cases h; exact hostWrite_quiet s (quiet_of_eq rfl rfl rfl)
  | softReset => cases h; exact hostWrite_quiet s (softReset_quiet s)
  | gcmdUnknown code =>
    simp only [exec, execGcmdUnknown] at h
    split at h <;> cases h
    · exact .refl s
    · exact hostWrite_quiet s (quiet_of_eq rfl rfl rfl)
  | commit ix => cases h; exact hostWrite_quiet s (commitProfile_quiet s ix)
  | clear ix => cases h; exact hostWrite_quiet s (tableChanged_quiet s ix .empty)
  | load ix => cases h; exact hostWrite_quiet s (quiet_of_eq rfl rfl rfl)
  | pcmdBadCommand code ix =>
    simp only [exec, execPcmdBadCommand] at h
    split at h <;> cases h
    · exact .refl s
    · exact hostWrite_quiet s (quiet_of_eq rfl rfl rfl)
  | controlWrite w => cases h; exact hostWrite_quiet s (writeControl_quiet s w)
  | prescWrite w => cases h; exact hostWrite_quiet s (writePresc_quiet s w)
  | resplimWrite w => cases h; exact hostWrite_quiet s (writeResplim_quiet s w)
  | irqctlWrite w => cases h; exact hostWrite_quiet s (writeIrqctl_quiet s w)
  | irqholdWrite w => cases h; exact hostWrite_quiet s (quiet_of_eq rfl rfl rfl)
  | evqpop w => cases h; exact hostWrite_quiet s (quiet_of_eq rfl rfl rfl)
  | fclr w => cases h; exact hostWrite_quiet s (quiet_of_eq rfl rfl rfl)
  | postedWrite n w => cases h; exact hostWrite_quiet s (writePostedReg_quiet s n w)
  | rbaseWrite n high w => cases h; exact hostWrite_quiet s (ringWrite_quiet s n _ fun _ => rfl)
  | rsizeWrite n w => cases h; exact hostWrite_quiet s (ringWrite_quiet s n _ fun _ => rfl)
  | lcfgWrite n w =>
    cases h
    exact hostWrite_quiet s (lockedWrite_quiet s n _ (fun _ => rfl) fun _ => rfl)
  | registerWrite size offset w =>
    cases size <;> cases h
    · exact .refl s
    · exact hostWrite_quiet s (writeWindow_quiet s offset w)

theorem step_quiet (s t : State) (h : step s = .next t) : QuietKept s t := by
  obtain ⟨c, rest, h⟩ | rfl := step_cases s t h
  · exact (exec_quiet c _ t h).after (quiet_of_eq rfl rfl rfl)
  · exact coreClock_quiet s

/-- Settles O48: a step that can bring a lane a request ends by raising the bus request, and no other does;
RECOVER brings none, for a FAULTED lane has nothing to return. -/
theorem idleBusMeansNoRequest : Obligations.IdleBusMeansNoRequest :=
  keptByStep_of_next fun s t ⟨raised, clear⟩ h =>
    ⟨(step_quiet s t h).raised clear raised, fun m => (step_quiet s t h).clear m (clear m)⟩

end Sys2Proof.Laws
end

section
/-! SUPPORT. The transfer each lane presents to the arbiter (O47) and the arbiter's choice at a grant (O49). -/

namespace Sys2Proof.Laws

open Sys2Proof.Machine Sys2Proof.Safety

/-! ## The request while a burst of the lane is in progress (R148) -/

theorem request_while_served {s : State} {n : LaneId} {b : Burst} (hb : s.bus.burst = some b)
    (hn : b.lane = n) : s.request n = none := by
  simp [State.request, BusMaster.serves, hb, hn]

theorem request_while_unserved {s : State} {n : LaneId}
    (h : ∀ b, s.bus.burst = some b → b.lane ≠ n) : s.request n = (s.lane n).request := by
  cases hb : s.bus.burst with
  | none => simp [State.request, BusMaster.serves, hb]
  | some b => simp [State.request, BusMaster.serves, hb, h b hb]

/-! ## The order of a lane's transfers (R148) -/

section
variable {l : Lane}

theorem request_of_active (h : l.life.active = true) :
    l.request = (l.engineRequest.or l.returnRequest).or l.fetchRequest := by
  unfold Lane.request
  cases hl : l.life <;> simp_all [Life.active]

theorem request_of_flushing (h : l.life.isFlushing = true) :
    l.request = l.returnRequest.or l.fetchRequest := by
  unfold Lane.request
  cases hl : l.life <;> simp_all [Life.isFlushing]

theorem request_of_stopped (h : l.life = .stopped) : l.request = l.returnRequest := by
  simp only [Lane.request, h]

theorem request_of_faulted {c : FaultCause} (h : l.life = .faulted c) : l.request = none := by
  simp only [Lane.request, h]

/-! ## The transfers of a capture lane (R37 to R41) -/

/-- The intervals that wait are those before the first end marker. -/
theorem fifoLead_eq_leading (fifo : List FifoEntry) : fifoLead fifo = leading fifo := by
  induction fifo with
  | nil => rfl
  | cons e rest ih =>
    cases e with
    | interval v => simpa [fifoLead, leading] using ih
    | endMarker => simp [fifoLead, leading]

theorem engineRequest_capture (h : l.regs.lmode = .capture) :
    l.engineRequest = l.captureRequest := by
  simp only [Lane.engineRequest, h]

theorem captureRequest_empty (h : l.cap.records = []) : l.captureRequest = none := by
  simp only [Lane.captureRequest, h]

/-! ## The transfers of a meter lane (R82) -/

theorem engineRequest_meter (h : l.regs.lmode = .meter) : l.engineRequest = l.meterRequest := by
  simp only [Lane.engineRequest, h]

theorem meterRequest_empty (h : l.result = none) : l.meterRequest = none := by
  simp only [Lane.meterRequest, h]

/-- The second header burst writes what SPREAD adds, or the one word of the total that is left (R82). -/
theorem writtenLength_sub_header (r : MeterResult) :
    r.writtenLength - 8 = if r.spread = true then 5 else 1 := by
  unfold MeterResult.writtenLength
  split <;> rfl

/-! ## The transfers of a replay lane (R94 to R96, R108) -/

theorem engineRequest_replay (h : l.regs.lmode = .replay) :
    l.engineRequest = (l.fillRequest.or l.loadRequest).or l.finishedRequest := by
  simp only [Lane.engineRequest, h]

theorem replayRequest_empty (h : l.rep.current = none) :
    (l.fillRequest.or l.loadRequest).or l.finishedRequest = l.finishedRequest := by
  simp [Lane.fillRequest, Lane.loadRequest, h]

/-- A FILL has the FIFO's room, and words of this pass or of the next to fetch (R96). -/
theorem fillReady_iff (c : ReplayRecord) : l.fillReady c ↔
    c.kind = some .intervals ∧ c.endPending = false ∧ c.fetched < c.count.toNat
      ∧ (l.rep.rstate = .rFill ∨ l.rep.rstate = .rPlay
        ∨ (l.rep.rstate = .rTrail ∧ c.passes < c.repeatCount.toNat ∧ c.stopRequested = false))
      ∧ l.fifo.length + min 8 (c.count.toNat - c.fetched) ≤ 32 := by
  simp only [Lane.fillReady, ReplayRecord.passCount, Nat.add_lt_add_iff_right]
  rfl

/-- A current record comes before a finished one: its FILL, then its LOAD (R148). -/
theorem replayRequest_current {c : ReplayRecord} (h : l.rep.current = some c) :
    (l.fillRequest.or l.loadRequest).or l.finishedRequest
      = if l.fillReady c then
          some ⟨.fill, false, bufferWord c.desc.addr (4 + c.fetched), c.fillWords⟩
        else if l.rep.rstate = .rLoad then
          if c.kind = none then some ⟨.load, false, c.desc.addr, 4⟩
          else some ⟨.load, false, bufferWord c.desc.addr 4, wordsForBits c.bitCount.toNat⟩
        else l.finishedRequest := by
  have fill : l.fillRequest = if l.fillReady c then
      some ⟨.fill, false, bufferWord c.desc.addr (4 + c.fetched), c.fillWords⟩ else none := by
    simp only [Lane.fillRequest, h, Config.replayHeaderWords]
  have load : l.loadRequest = if l.rep.rstate = .rLoad then
      if c.kind = none then some ⟨.load, false, c.desc.addr, 4⟩
      else some ⟨.load, false, bufferWord c.desc.addr 4, wordsForBits c.bitCount.toNat⟩
      else none := by
    cases hr : l.rep.rstate with
    | rLoad =>
      simp only [Lane.loadRequest, hr, h, if_true]
      cases c.kind <;> rfl
    | _ => simp [Lane.loadRequest, hr]
  rw [fill, load]
  split
  · rfl
  · split
    · split <;> rfl
    · rfl

/-! ## The class URGENT (R150) -/

theorem urgent_iff : l.urgent = true ↔ l.life.active = true
    ∧ ((l.regs.lmode = .capture ∧ 24 ≤ l.fifo.length)
      ∨ (l.regs.lmode = .replay ∧ l.rep.rstate = .rPlay ∧ l.fifo.length ≤ 8
        ∧ ∃ c, l.rep.current = some c ∧ c.kind = some .intervals ∧ c.fetched < c.count.toNat)) := by
  unfold Lane.urgent
  rw [Bool.and_eq_true]
  refine and_congr_right fun _ => ?_
  cases l.regs.lmode with
  | none | meter => simp
  | capture => simp
  | replay => cases l.rep.current <;> simp [and_assoc]

end

/-- Settles O47: the lane's life gives the order, its mode the engine's transfer. -/
theorem requestsPresented : Obligations.RequestsPresented := by
  refine ⟨fun s n => ⟨fun b hb hn => request_while_served hb hn, request_while_unserved⟩,
    fun l => ?_⟩
  intro entry ret fetch
  have hret : l.returnRequest = ret := by
    cases h : l.ring.ret <;> simp [Lane.returnRequest, ret, entry, Ring.entryAddr, h]
  have hfetch : l.fetchRequest = fetch := by
    cases h : l.ring.slot with
    | empty | held d => simp [Lane.fetchRequest, fetch, h]
    | fetching i granted words =>
      cases granted <;> simp [Lane.fetchRequest, fetch, entry, Ring.entryAddr, h]
  refine ⟨fun h => hret ▸ hfetch ▸ request_of_active h,
    fun h => hret ▸ hfetch ▸ request_of_flushing h,
    fun h => hret ▸ request_of_stopped h, fun c h => request_of_faulted h, fun h => ?_, fun h hr => ?_,
    fun r rs hr h => ?_, fun h hr => ?_, fun r hr h => ?_, ?_, urgent_iff⟩
  · simp only [Lane.engineRequest, h]
  · rw [engineRequest_capture h, captureRequest_empty hr]
  · rw [engineRequest_capture h]
    simp only [Lane.captureRequest, hr, fifoLead_eq_leading]
    cases r.step <;> rfl
  · rw [engineRequest_meter h, meterRequest_empty hr]
  · rw [engineRequest_meter h]
    simp only [Lane.meterRequest, hr, writtenLength_sub_header]
    cases r.step <;> rfl
  · intro done h
    have hdone : l.finishedRequest = done := by
      cases hf : l.rep.finished <;> simp [Lane.finishedRequest, done, entry, Ring.entryAddr, hf]
    rw [engineRequest_replay h, ← hdone]
    exact ⟨replayRequest_empty, fun c hc =>
      (replayRequest_current hc).trans (if_congr (fillReady_iff c) rfl rfl)⟩

/-! ## The arbiter's choice (R152) -/

theorem numbers_eq_finRange : Eight.numbers = List.finRange 8 := by decide

/-- The arbiter finds the first lane from the pointer of which `p` holds. -/
theorem find?_order {b : BusMaster} {p : LaneId → Bool} {n : LaneId} (hn : p n = true)
    (first : ∀ m, (m - b.ptr).val < (n - b.ptr).val → p m = false) : b.order.find? p = some n := by
  have len : b.order.length = 8 := by simp [BusMaster.order, Eight.numbers]
  have nth (k : LaneId) (hk : k.val < b.order.length) : b.order[k.val] = b.ptr + k := by
    simp [BusMaster.order, numbers_eq_finRange]
  refine List.find?_eq_some_iff_getElem.mpr
    ⟨hn, (n - b.ptr).val, by omega, ?_, fun j hj => ?_⟩
  · rw [nth, add_sub_cancel]
  · have place : b.order[j] = b.ptr + ⟨j, by omega⟩ := nth ⟨j, by omega⟩ (by simp; omega)
    rw [place, first _ (by simpa using hj)]
    rfl

/-- The first URGENT request, or with none URGENT the first request. -/
theorem choose_first {s : State} {n : LaneId} (asks : (s.request n).isSome = true)
    (h : ((s.lane n).urgent = true ∧ ∀ m, (m - s.bus.ptr).val < (n - s.bus.ptr).val →
          ¬ ((s.request m).isSome = true ∧ (s.lane m).urgent = true))
      ∨ ((∀ m, ¬ ((s.request m).isSome = true ∧ (s.lane m).urgent = true))
        ∧ ∀ m, (m - s.bus.ptr).val < (n - s.bus.ptr).val → ¬ (s.request m).isSome = true)) :
    s.choose = some n := by
  unfold State.choose
  obtain ⟨urgent, first⟩ | ⟨none, first⟩ := h
  · rw [find?_order (n := n) (by simp [asks, urgent]) fun m hm => by simpa using first m hm]
    rfl
  · rw [List.find?_eq_none.mpr fun m _ => by simpa using none m,
      find?_order asks fun m hm => by simpa using first m hm]
    rfl

theorem grant_chosen {s : State} {n : LaneId} {q : Request} (asked : s.bus.bstate = .requesting)
    (hq : s.request n = some q) (chosen : s.choose = some n) : s.grant = s.beginBurst n q := by
  simp only [State.grant, asked, chosen, hq]

/-- With no request presented none is chosen. -/
theorem grant_unwanted {s : State} (asked : s.bus.bstate = .requesting)
    (none : ∀ n, ¬ (s.request n).isSome = true) : s.grant = s.releaseBus := by
  have unchosen : s.choose = .none := by
    cases hc : s.choose with
    | none => rfl
    | some n => exact absurd (Option.isSome_iff_ne_none.mpr (choose_eq_some hc)) (none n)
  simp only [State.grant, asked, unchosen]

theorem grant_unasked {s : State} (h : s.bus.bstate ≠ .requesting) : s.grant = s := by
  unfold State.grant
  split
  · next asked => exact absurd asked h
  · rfl

/-! ## The burst that begins (R152 to R154) -/

section
variable (s : State) (n : LaneId) (q : Request)

/-- The burst a grant begins for request `q` of lane `n`. -/
abbrev grantedBurst : Burst :=
  { lane := n, purpose := q.purpose, forRing := q.forRing, base := q.base, done := 0,
    remaining := q.words, orphan := false, cycle := s.beginCycle n q.purpose q.forRing q.base 0 }

/-- The bus is the burst's, and a fetch is marked begun; the mark is no part of the word the first cycle
takes. -/
theorem beginBurst_eq : s.beginBurst n q =
    { s with
      lanes := if q.purpose = .fetch then
          s.lanes.set n { s.lane n with ring := (s.lane n).ring.grantFetch }
        else s.lanes
      bus := { s.bus with bstate := .owned (grantedBurst s n q), ptr := n + 1 } } := by
  unfold State.beginBurst
  dsimp only
  split
  · next fetch =>
    simp only [grantedBurst, State.beginCycle, fetch, Lane.writeWord]
    rfl
  · rfl

theorem beginBurst_lane_self : (s.beginBurst n q).lane n
    = if q.purpose = .fetch then { s.lane n with ring := (s.lane n).ring.grantFetch }
      else s.lane n := by
  rw [beginBurst_eq, State.lane]
  split
  · exact Eight.get_set_self _ _ _
  · rfl

theorem beginBurst_others : othersKept n s (s.beginBurst n q) := fun m hm => by
  rw [beginBurst_eq, State.lane]
  split
  · exact Eight.get_set_ne _ _ hm
  · rfl

theorem beginBurst_shared : sharedKept s (s.beginBurst n q) := by
  rw [beginBurst_eq]
  exact sharedKept_refl s

/-- A burst begins at its request's address, a write-back at word 3 of the ring entry (R153, R183). -/
theorem beginCycle_addr_first :
    (s.beginCycle n q.purpose q.forRing q.base 0).addr
      = if q.purpose = .writeback then q.base + 6 else q.base := by
  have base : bufferWord q.base 0 = q.base := by simp [bufferWord]
  unfold State.beginCycle cycleAddr
  cases hp : q.purpose <;> simp only [base] <;> rfl

end

/-- A fetch whose burst begins keeps its index and its words (R136). -/
theorem grantFetch_of_fetching {r : Ring} {i : Nat} {g : Bool} {ws : List Word}
    (h : r.slot = .fetching i g ws) : r.grantFetch = { r with slot := .fetching i true ws } := by
  simp only [Ring.grantFetch, h]

/-- Settles O49: the choice from the pointer, and the burst of the lane chosen. -/
theorem grantChoosesFromPointer : Obligations.GrantChoosesFromPointer := by
  intro s
  refine ⟨fun n q asked hq first => ?_,
    fun asked none => congrArg Host.Outcome.next (grant_unwanted asked none),
    fun unasked => congrArg Host.Outcome.next (grant_unasked unasked)⟩
  have asks : (s.request n).isSome = true := by rw [hq]; rfl
  have chosen := choose_first asks (first.imp_left fun ⟨⟨_, urgent⟩, before⟩ => ⟨urgent, before⟩)
  have granted : exec .busGrant s = .next (s.beginBurst n q) :=
    congrArg Host.Outcome.next (grant_chosen asked hq chosen)
  refine ⟨_, grantedBurst s n q, granted, by rw [beginBurst_eq], rfl, rfl, rfl, rfl, rfl, rfl, rfl,
    rfl, rfl, beginCycle_addr_first s n q, rfl, beginBurst_shared s n q, beginBurst_others s n q,
    by rw [beginBurst_eq], by rw [beginBurst_eq], fun other => ?_, fun i g ws fetch hs => ?_⟩
  · rw [beginBurst_lane_self, if_neg other]
  · rw [beginBurst_lane_self, if_pos fetch, grantFetch_of_fetching hs]

end Sys2Proof.Laws
end

section
/-! SUPPORT. The response limit (O8) and the failure of a word cycle (O55): a write to RESPLIM, the limit a
word cycle begins with, the fault record and the lane that fails. -/

namespace Sys2Proof.Laws

open Sys2Proof.Machine Sys2Proof.Safety

/-! ## RESPLIM (R161) -/

theorem readWindow_resplim (s : State) : s.readWindow 0x00A = s.bus.resplim.zeroExtend 16 := rfl

/-- The low 12 bits of a word, as RESPLIM reads back (R182). -/
theorem resplimField_readBack (w : Word) : (w.extractLsb' 0 12).zeroExtend 16 = w &&& 0x0FFF := by
  refine BitVec.eq_of_toNat_eq ?_
  have mask : w.toNat &&& 4095 = w.toNat % 4096 := Nat.and_two_pow_sub_one_eq_mod w.toNat 12
  simp [BitVec.extractLsb', mask]
  omega

theorem writeResplim_taken (s : State) {w : Word} (h : 16 ≤ (w.extractLsb' 0 12).toNat) :
    s.writeResplim w = { s.taken with bus := { s.bus with resplim := w.extractLsb' 0 12 } } :=
  if_neg (Nat.not_lt.mpr h)

theorem writeResplim_refused (s : State) {w : Word} (h : (w.extractLsb' 0 12).toNat < 16) :
    s.writeResplim w = s.refuse := if_pos h

theorem softReset_resplim (s : State) : s.softReset.bus.resplim = s.bus.resplim := by
  unfold State.softReset
  split <;> rfl

/-- A reset of a lane may cut its burst, and no more of the bus (R129). -/
theorem orphan_resplim (b : BusMaster) (n : LaneId) : (b.orphan n).resplim = b.resplim := by
  unfold BusMaster.orphan
  split
  · split <;> rfl
  · rfl

/-- A window write that keeps RESPLIM keeps it while a soft reset is pending too, being ignored (R180). -/
theorem hostWrite_resplim (s : State) {f : State → State}
    (h : (f s).bus.resplim = s.bus.resplim) : (s.hostWrite f).bus.resplim = s.bus.resplim := by
  obtain ⟨_, k⟩ | ⟨_, k⟩ := s.hostWrite_cases f <;> rw [k]
  exact h

/-- Settles O8: the write by its two cases, and each reset by what it leaves of the bus master. -/
theorem resplimWriteTakenOrRefused : Obligations.ResplimWriteTakenOrRefused := by
  refine ⟨fun s w hp => ?_, fun s n p r base k => rfl, fun s => ⟨s.deviceReset, rfl, rfl⟩,
    fun s c hc => ?_, fun s n a => ⟨_, rfl, hostWrite_resplim s (orphan_resplim s.bus n)⟩⟩
  · have write : exec (.resplimWrite w) s = .next (s.writeResplim w) := by
      simp only [exec, execResplimWrite, State.hostWrite_taken s _ hp]
    refine ⟨fun h => ⟨_, write, writeResplim_taken s h, ?_⟩, fun h => ?_⟩
    · rw [readWindow_resplim, writeResplim_taken s h]
      exact resplimField_readBack w
    · rw [write, writeResplim_refused s h]
      rfl
  · obtain rfl | rfl : c = .softReset ∨ c = .softResetComplete := by simpa using hc
    · exact ⟨_, rfl, hostWrite_resplim s (softReset_resplim s)⟩
    · by_cases hp : s.ctl.resetPending = true
      · exact ⟨s.completeSoftReset, if_pos hp, rfl⟩
      · exact ⟨s, if_neg hp, rfl⟩

/-! ## The fault record (R157, R158) -/

theorem capture_first {r : FaultRecord} (b : Burst) (errorReply : Bool) (h : r.valid = false) :
    r.capture b errorReply = ⟨true, r.multi, b.cycle.addr, b.purpose.isWrite, b.lane, b.purpose,
      errorReply⟩ := by
  simp [FaultRecord.capture, h]

theorem capture_further {r : FaultRecord} (b : Burst) (errorReply : Bool) (h : r.valid = true) :
    r.capture b errorReply = { r with multi := true } := if_pos h

theorem exec_fclr {s : State} (w : Word) (hp : s.ctl.resetPending = false) :
    exec (.fclr w) s = .next s.clearFault := by
  simp only [exec, execFclr, State.hostWrite_taken s _ hp]

/-! ## The failure of a word cycle (R155, R156) -/

theorem noResponse_early {s : State} {b : Burst} (hb : s.bus.bstate = .owned b)
    (h : b.cycle.elapsed < b.cycle.limit.toNat) : exec .noResponse s = .next s := by
  obtain ⟨none, _⟩ | ⟨b', hb', ⟨_, early⟩ | ⟨due, _⟩⟩ := execNoResponse_cases s
  · simp [BusMaster.burst, hb] at none
  · exact early
  · cases hb.symm.trans hb'
    omega

theorem noResponse_due {s : State} {b : Burst} (hb : s.bus.bstate = .owned b)
    (h : b.cycle.limit.toNat ≤ b.cycle.elapsed) : exec .noResponse s = .next (s.failCycle false) := by
  obtain ⟨none, _⟩ | ⟨b', hb', ⟨early, _⟩ | ⟨_, due⟩⟩ := execNoResponse_cases s
  · simp [BusMaster.burst, hb] at none
  · cases hb.symm.trans hb'
    omega
  · exact due

theorem fail_without_cycle {s : State} (h : s.bus.burst = none) :
    exec .noResponse s = .next s ∧ exec .errorReply s = .next s := by
  have owned (b : Burst) : s.bus.bstate ≠ .owned b := fun hb => by
    simp [BusMaster.burst, hb] at h
  constructor
  · obtain ⟨_, same⟩ | ⟨b, hb, _⟩ := execNoResponse_cases s
    · exact same
    · exact absurd hb (owned b)
  · obtain ⟨_, same⟩ | ⟨b, hb, _⟩ := failCycle_cases s true
    · exact congrArg Host.Outcome.next same
    · exact absurd hb (owned b)

/-- The state in which a word cycle of burst `b` has failed: the fault is recorded and the bus released. -/
abbrev cycleFailed (s : State) (b : Burst) (errorReply : Bool) : State :=
  { s with bus := { s.bus with bstate := .idle, fault := s.bus.fault.capture b errorReply } }

/-- What the failure of a word cycle does to a lane that has not been reset, and to one that has (R156,
R159). -/
theorem failCycle_owned {s : State} {b : Burst} (e : Bool) (hp : s.ctl.resetPending = false)
    (hb : s.bus.bstate = .owned b) :
    (b.orphan = true ∧ s.failCycle e = (cycleFailed s b e).raiseRequest)
    ∨ (b.orphan = false ∧ s.failCycle e = ((cycleFailed s b e).faultLane b.lane
        (if e then .errorReply else .noResponse)).raiseRequest) := by
  obtain ⟨none, _⟩ | ⟨b', hb', ⟨pending, _⟩ | ⟨_, s1, rfl, reached⟩⟩ := failCycle_cases s e
  · simp [BusMaster.burst, hb] at none
  · simp [hp] at pending
  · cases hb.symm.trans hb'
    exact reached

/-- What is left of the bus after the failure: it is released, and the fault is in the record. -/
structure FailureLeaves (s : State) (b : Burst) (e : Bool) (t : State) : Prop where
  released : t.bus.burst = none
  shared : sharedKept s t
  others : othersKept b.lane s t
  ptr : t.bus.ptr = s.bus.ptr
  resplim : t.bus.resplim = s.bus.resplim
  fault : t.bus.fault = s.bus.fault.capture b e

theorem failureLeaves_raise {s u : State} {b : Burst} {e : Bool} (hbus : u.bus = (cycleFailed s b e).bus)
    (hshared : sharedKept s u) (hothers : othersKept b.lane s u) :
    FailureLeaves s b e u.raiseRequest where
  released := by rw [State.raiseRequest_burst, hbus]; rfl
  shared := shared_raise hshared
  others := others_raise hothers
  ptr := by rw [State.raiseRequest_bus_ptr, hbus]
  resplim := by rw [State.raiseRequest_bus_resplim, hbus]
  fault := by rw [State.raiseRequest_bus_fault, hbus]

theorem failCycle_leaves {s : State} {b : Burst} (e : Bool) (hp : s.ctl.resetPending = false)
    (hb : s.bus.bstate = .owned b) : FailureLeaves s b e (s.failCycle e) := by
  obtain ⟨_, h⟩ | ⟨_, h⟩ := failCycle_owned e hp hb <;> rw [h]
  · exact failureLeaves_raise rfl (sharedKept_refl s) (othersKept_refl _ s)
  · exact failureLeaves_raise rfl (faultLane_shared (cycleFailed s b e) _ _)
      (faultLane_others (cycleFailed s b e) _ _)

/-- A lane that has been reset is not reached (R159). -/
theorem failCycle_orphan {s : State} {b : Burst} (e : Bool) (hp : s.ctl.resetPending = false)
    (hb : s.bus.bstate = .owned b) (ho : b.orphan = true) :
    (s.failCycle e).lanes = s.lanes ∧ (s.failCycle e).queue = s.queue
      ∧ (s.failCycle e).meters = s.meters := by
  obtain ⟨_, h⟩ | ⟨hn, _⟩ := failCycle_owned e hp hb
  · rw [h]
    simp
  · simp [ho] at hn

/-- Any other lane enters FAULTED (R126). -/
theorem failCycle_faults {s : State} {b : Burst} (e : Bool) (hp : s.ctl.resetPending = false)
    (hb : s.bus.bstate = .owned b) (ho : b.orphan = false) {cause : FaultCause}
    (hc : (if e then FaultCause.errorReply else .noResponse) = cause) :
    laneFaulted b.lane cause cause.code s (s.failCycle e) := by
  obtain ⟨hn, _⟩ | ⟨_, h⟩ := failCycle_owned e hp hb
  · simp [ho] at hn
  · rw [h, hc]
    refine laneFaulted_of_fault ?_ (State.raiseRequest_meters _) (State.raiseRequest_queue _)
    exact (State.raiseRequest_lane _ _).trans (Eight.get_set_self _ _ _)

/-- Settles O55: FCLR by evaluation, the reports that change nothing, and the failed cycle by its state. -/
theorem failedCycleFaultsLane : Obligations.FailedCycleFaultsLane := by
  refine ⟨fun s w hp => exec_fclr w hp, fun s b hb early => noResponse_early hb early,
    fun s none => fail_without_cycle none, fun s b hp hb x hx due => ?_⟩
  suffices failed : ∃ e, exec x.1 s = .next (s.failCycle e) ∧ x.2.1 = e
      ∧ (if e then FaultCause.errorReply else .noResponse) = x.2.2.1 ∧ x.2.2.2 = x.2.2.1.code by
    obtain ⟨e, run, he, cause, code⟩ := failed
    have bus := failCycle_leaves e hp hb
    refine ⟨s.failCycle e, run, bus.released, bus.shared, bus.others, bus.ptr, bus.resplim,
      fun first => ?_, fun further => ?_, failCycle_orphan e hp hb, fun ho => ?_⟩
    · rw [bus.fault, he, capture_first b e first]
    · rw [bus.fault, capture_further b e further]
    · rw [code]
      exact failCycle_faults e hp hb ho cause
  obtain rfl | rfl : x = _ ∨ x = _ := by simpa using hx
  · exact ⟨true, rfl, rfl, rfl, rfl⟩
  · exact ⟨false, noResponse_due hb (due.resolve_left nofun), rfl, rfl, rfl⟩

end Sys2Proof.Laws
end

section
/-! SUPPORT. The event queue and the interrupt request: a post (O14), the writes to IRQCTL and IRQHOLD and the
holdoff timer (O17), EVQPOP (O15), and the level of the request (O16). -/

namespace Sys2Proof.Laws

open Sys2Proof.Machine Sys2Proof.Safety

/-! ## A post (R163, R171) -/

/-- The count of an OVERFLOW entry saturates (R163). -/
theorem raise_eq (e : Event) :
    e.raise = { e with value := if e.value = 65535 then 65535 else e.value + 1 } := by
  unfold Event.raise
  split
  · next top => rw [← top]
  · rfl

theorem postEntries_room {es : List Event} (e : Event) (h : es.length ≤ 30) :
    postEntries es e = es ++ [e] := if_pos h

theorem postEntries_begins {es : List Event} (e : Event) (h : es.length = 31)
    (hn : newestIsOverflow es = false) : postEntries es e = es ++ [⟨.overflow, none, 1⟩] := by
  obtain ⟨hl, _⟩ | ⟨_, hn', _⟩ | ⟨_, _, k⟩ | ⟨hl, _⟩ := postEntries_cases es e
  · omega
  · simp [hn] at hn'
  · exact k
  · omega

theorem postEntries_raises {older : List Event} {newest : Event} (e : Event)
    (h : 31 ≤ (older ++ [newest]).length) (hk : newest.kind = .overflow) :
    postEntries (older ++ [newest]) e = older ++ [newest.raise] := by
  have hn : newestIsOverflow (older ++ [newest]) = true := by simp [hk]
  obtain ⟨hl, _⟩ | ⟨_, _, k⟩ | ⟨_, hn', _⟩ | ⟨_, hn', _⟩ := postEntries_cases (older ++ [newest]) e
  · omega
  · rw [k, mapNewest_concat]
  · simp [hn] at hn'
  · simp [hn] at hn'

/-- A post keeps the queue at 32 entries at most, of which the 32nd is OVERFLOW (R163). -/
theorem postEntries_bound {es : List Event} (e : Event) (hlen : es.length ≤ 32)
    (hfull : es.length = 32 → newestIsOverflow es = true) :
    (postEntries es e).length ≤ 32
      ∧ ((postEntries es e).length = 32 → newestIsOverflow (postEntries es e) = true) := by
  obtain ⟨hl, k⟩ | ⟨_, hn, k⟩ | ⟨hl, _, k⟩ | ⟨hl, hn, _⟩ := postEntries_cases es e
  · rw [k, List.length_append, List.length_singleton]
    exact ⟨by omega, by omega⟩
  · rw [k, mapNewest_length, (raised_right es).1]
    exact ⟨hlen, fun _ => hn⟩
  · rw [k, newestIsOverflow_concat, List.length_append, List.length_singleton, hl]
    exact ⟨le_rfl, fun _ => rfl⟩
  · simp [hfull (by omega)] at hn

/-- Settles O14: the entries by how many the queue holds and whether the newest is OVERFLOW, the timer by
whether it is empty. -/
theorem postTakesOneEvent : Obligations.PostTakesOneEvent := by
  intro q now e hlen hfull
  obtain ⟨bound, last⟩ := postEntries_bound e hlen hfull
  refine ⟨postEntries_room e, postEntries_begins e, fun older newest hq h hk => ?_, bound, last,
    fun empty => ?_, fun held => ?_, rfl, rfl, rfl, rfl⟩
  · rw [EventQueue.post_entries, hq, postEntries_raises e (hq ▸ h) hk, raise_eq]
  · rw [EventQueue.post_timer, if_pos empty, EventQueue.startTimer]
  · rw [EventQueue.post_timer, if_neg held]

/-! ## IRQCTL and IRQHOLD (R170, R171) -/

theorem writeIrqctl_refused (s : State) {w : Word}
    (h : w.extractLsb' 8 6 = 0 ∨ 32 < (w.extractLsb' 8 6).toNat) : s.writeIrqctl w = s.refuse :=
  if_pos h

theorem writeIrqctl_taken (s : State) {w : Word} (hmin : 1 ≤ (w.extractLsb' 8 6).toNat)
    (hmax : (w.extractLsb' 8 6).toNat ≤ 32) :
    s.writeIrqctl w = { s.taken with
      queue := { s.queue with ie := w.getLsbD 0, ithresh := w.extractLsb' 8 6 } } := by
  refine if_neg (not_or.mpr ⟨fun zero => ?_, Nat.not_lt.mpr hmax⟩)
  rw [show w.extractLsb' 8 6 = 0 from zero] at hmin
  exact absurd hmin (by decide)

/-- What IRQHOLD's value makes of the timer (R171). -/
theorem writeIrqhold_timer (s : State) (w : Word) :
    (s.writeIrqhold w).queue.timer = if w = 0 then none
      else if s.queue.entries = [] then s.queue.timer else some ⟨s.time.count, w⟩ := by
  by_cases hw : w = 0
  · simp only [State.writeIrqhold, if_pos hw]
  · simp only [State.writeIrqhold, EventQueue.startTimer, if_neg hw]

/-! ## The holdoff timer (R171, R172) -/

theorem exec_holdoffExpiry_due {s : State} (h : s.queue.holdoffDue s.time.count = true) :
    exec .holdoffExpiry s
      = .next { s with queue := { s.queue with expired := true, timer := none } } := if_pos h

theorem exec_holdoffExpiry_early {s : State} (h : s.queue.holdoffDue s.time.count = false) :
    exec .holdoffExpiry s = .next s := if_neg (by simp [h])

/-- A running timer is due once its IHOLD coarse units of 1024 base ticks have passed (R6, R171). -/
theorem holdoffDue_running {q : EventQueue} {h : HoldTimer} (now : Stamp) (run : q.timer = some h) :
    q.holdoffDue now = decide (h.length ≠ 0 ∧ h.length.toNat * 1024 ≤ (now - h.start).toNat) := by
  rw [EventQueue.holdoffDue, run]
  rfl

theorem holdoffDue_stopped {q : EventQueue} (now : Stamp) (stop : q.timer = none) :
    q.holdoffDue now = false := by
  rw [EventQueue.holdoffDue, stop]

/-- Settles O17: IRQCTL by R170's bounds, IRQHOLD by its value and the queue, and the expiry by whether the
timer is due. -/
theorem interruptSettingsAndHoldoff : Obligations.InterruptSettingsAndHoldoff := by
  refine ⟨fun s w hp => ?_, fun s w hp => ?_, fun s => ⟨fun h run on reached => ?_,
    fun h run early => ?_, fun stop => ?_⟩⟩
  · have write : exec (.irqctlWrite w) s = .next (s.writeIrqctl w) := by
      simp only [exec, execIrqctlWrite, State.hostWrite_taken s _ hp]
    rw [write]
    refine ⟨fun h => ?_, fun hmin hmax => ?_⟩
    · rw [writeIrqctl_refused s h]
      rfl
    · rw [writeIrqctl_taken s hmin hmax]
      rfl
  · have write : exec (.irqholdWrite w) s = .next (s.writeIrqhold w) := by
      simp only [exec, execIrqholdWrite, State.hostWrite_taken s _ hp]
    refine ⟨_, write, rfl, fun zero => ?_, fun on held => ?_, fun on empty => ?_, rfl⟩
    · rw [writeIrqhold_timer, if_pos zero]
    · rw [writeIrqhold_timer, if_neg on, if_neg held]
    · rw [writeIrqhold_timer, if_neg on, if_pos empty]
  · exact exec_holdoffExpiry_due
      (by rw [holdoffDue_running _ run]; exact decide_eq_true ⟨on, reached⟩)
  · exact exec_holdoffExpiry_early
      (by rw [holdoffDue_running _ run]; exact decide_eq_false fun due => by omega)
  · exact exec_holdoffExpiry_early (holdoffDue_stopped _ stop)

/-! ## EVQPOP (R167) -/

theorem pop_none {q : EventQueue} (now : Stamp) (h : q.entries = []) : q.pop now = q := by
  rw [EventQueue.pop, h]

theorem pop_only {q : EventQueue} {e : Event} (now : Stamp) (h : q.entries = [e]) :
    q.pop now = { q with entries := [], timer := none, expired := false } := by
  rw [EventQueue.pop, h]

theorem pop_oldest {q : EventQueue} {e f : Event} {rest : List Event} (now : Stamp)
    (h : q.entries = e :: f :: rest) :
    q.pop now = { q with entries := f :: rest, timer := q.startTimer now } := by
  rw [EventQueue.pop, h]

/-- Settles O15: the removal by the entries held; a byte write has no effect anywhere (R174), nor has any
write while a soft reset is pending (R180). -/
theorem popRemovesOldest : Obligations.PopRemovesOldest := by
  refine ⟨fun s w hp => ?_, fun s o w _ => rfl, fun s w hp => ?_⟩
  · have write : exec (.evqpop w) s = .next { s with queue := s.queue.pop s.time.count } := by
      simp only [exec, execEvqpop, State.hostWrite_taken s _ hp]
      rfl
    rw [write]
    refine ⟨fun h => ?_, fun e h => ?_, fun e f rest h => ?_⟩
    · rw [pop_none _ h]
    · rw [pop_only _ h]
    · rw [pop_oldest _ h, EventQueue.startTimer]
  · simp only [exec, execEvqpop, State.hostWrite_pending_reset s _ hp]

/-! ## The interrupt request (R169) -/

theorem irq_iff (q : EventQueue) : q.irq = true ↔
    q.ie = true ∧ (q.ithresh.toNat ≤ q.entries.length ∨ q.expired = true) := by
  simp [EventQueue.irq]

/-- IRQLVL is bit 9 of EVQCOUNT (R166, R182). -/
theorem evqcount_irqlvl (q : EventQueue) : q.evqcount.getLsbD 9 = q.irq := by
  simp only [EventQueue.evqcount, getLsbD_packFields _ _ _ _ 9 (by decide), getLsbD_packFields_nil]
  cases q.irq <;> simp [bit]

/-- Settles O16: the request is a condition on the queue, and EVQCOUNT shows it. -/
theorem interruptRequestLevel : Obligations.InterruptRequestLevel :=
  fun s => ⟨irq_iff s.queue, evqcount_irqlvl s.queue⟩

end Sys2Proof.Laws
end

section
/-! SUPPORT. The resets of the part: what DEVICE_RESET leaves (O5), SOFT_RESET, the writes it ignores and its
end (O4), and the state after reset, which meets every condition that a step keeps (O60). -/

namespace Sys2Proof.Laws

open Sys2Proof.Machine Sys2Proof.Safety

/-! ## What a reset leaves of each block (R72, R158, R160, R173) -/

theorem free_claim (u : UnitId) : (MeterPool.free.get u).claim = none := by
  fin_cases u <;> rfl

theorem busReset_values (resplim : BitVec 12) :
    busResetValues { BusMaster.reset with resplim := resplim } :=
  ⟨rfl, rfl, rfl, rfl, rfl, rfl, rfl, rfl, rfl⟩

theorem queueReset_values : queueResetValues .reset := ⟨rfl, rfl, rfl, rfl, rfl, rfl⟩

theorem deviceReset_lane (s : State) (n : LaneId) :
    s.deviceReset.lane n = .afterReset (s.lane n).line 0 .none := Eight.get_mapIdx _ _ _

theorem completeSoftReset_lane (s : State) (n : LaneId) :
    s.completeSoftReset.lane n = .afterReset (s.lane n).line s.time.count .none :=
  Eight.get_mapIdx _ _ _

/-! ## DEVICE_RESET (R181) -/

theorem deviceReset_profile (s : State) (i : ProfileIx) : s.deviceReset.table.get i = .empty :=
  Eight.get_fill _ _

/-- With every entry EMPTY, PVALID reads 0 (R45). -/
theorem validMask_empty : validMask (.fill .empty) = 0 := by decide

/-- Settles O5: each block stands at its reset value, and each lane as a lane reset at count 0 leaves it. -/
theorem deviceResetValues : Obligations.DeviceResetValues := by
  refine fun s => ⟨s.deviceReset, rfl, rfl, rfl, rfl, rfl, rfl, rfl, rfl, rfl, fun i => ?_,
    validMask_empty, rfl, rfl, free_claim, busReset_values 1024, rfl, queueReset_values, rfl, fun n => ?_⟩
  · rw [deviceReset_profile]
    exact ⟨rfl, rfl⟩
  · rw [deviceReset_lane]
    exact afterReset_values _ _ _

/-! ## SOFT_RESET (R179, R180) -/

/-- A window write is ignored while a soft reset is pending, an unknown code and a byte write as any other
(R180). -/
theorem exec_windowWrite_pending {s : State} (hp : s.ctl.resetPending = true) {c : Instr}
    (hc : isWindowWrite c = true) : exec c s = .next s := by
  have ignored (f : State → State) : Host.Outcome.next (s.hostWrite f)
      = (.next s : Host.Outcome State Fault Refusal) := congrArg _ (s.hostWrite_pending_reset f hp)
  cases c with
  | gcmdUnknown code => rw [exec, execGcmdUnknown, ignored, ite_self]
  | pcmdBadCommand code ix => rw [exec, execPcmdBadCommand, ignored, ite_self]
  | lcmdBadCommand n code arg => rw [exec, execLcmdBadCommand, ignored, ite_self]
  | registerWrite size offset w =>
    cases size with
    | byte => rfl
    | word => exact ignored _
  | start | stop | abort | skip | flush | recover | reset | snap | note | softReset | commit | clear | load
  | controlWrite | prescWrite | resplimWrite | irqctlWrite | irqholdWrite | evqpop | fclr | postedWrite
  | rbaseWrite | rsizeWrite | lcfgWrite => exact ignored _
  | _ => cases hc

/-- The completion of a soft reset leaves the state of R179. -/
theorem completeSoftReset_done (s : State) : softResetDone s s.completeSoftReset := by
  refine ⟨rfl, rfl, rfl, rfl, rfl, rfl, rfl, rfl, rfl, rfl, busReset_values _, queueReset_values, free_claim,
    fun n => ?_⟩
  rw [completeSoftReset_lane]
  exact afterReset_values _ _ _

theorem exec_softReset {s : State} (hp : s.ctl.resetPending = false) :
    exec .softReset s = .next s.softReset := congrArg Host.Outcome.next (s.hostWrite_taken _ hp)

theorem exec_softResetComplete {s : State} (hp : s.ctl.resetPending = true) :
    exec .softResetComplete s = .next s.completeSoftReset := if_pos hp

theorem softReset_at_once {s : State} (h : s.bus.burst = none) : s.softReset = s.completeSoftReset := by
  unfold State.softReset
  split
  · next b hb => simp [BusMaster.burst, hb] at h
  · rfl

/-- With a word cycle in progress the reset is pending, and the burst ends with that cycle (R160). -/
theorem softReset_waits {s : State} {b : Burst} (h : s.bus.bstate = .owned b) :
    s.softReset = { s with
      ctl := { s.ctl with resetPending := true, refused := false }
      bus := { s.bus with bstate := .owned { b with remaining := 1 } } } := by
  simp only [State.softReset, h]
  rfl

/-- The end of the word cycle completes a pending reset, whether it is acknowledged or fails (R179). -/
theorem cycleEnd_pending {s : State} {b : Burst} (hp : s.ctl.resetPending = true)
    (hb : s.bus.bstate = .owned b) : (∀ data, s.acknowledge data = s.completeSoftReset)
      ∧ ∀ e, s.failCycle e = s.completeSoftReset := by
  simp only [State.acknowledge, State.failCycle, hb, if_pos hp, implies_true, and_self]

/-- Settles O4: the writes ignored while the reset is pending, the command by whether a word cycle is in
progress, and each way in which the cycle ends. -/
theorem softResetIgnoresWritesAndCompletes : Obligations.SoftResetIgnoresWritesAndCompletes := by
  refine ⟨fun s hp => ⟨fun c => exec_windowWrite_pending hp, s.deviceReset, rfl, rfl⟩,
    fun s hp idle => ⟨_, exec_softReset hp, ?_⟩, fun s b hp hb => ⟨_, exec_softReset hp, ?_⟩,
    fun s hp => ⟨_, exec_softResetComplete hp, completeSoftReset_done s⟩, fun s b d hp hb => ?_⟩
  · rw [softReset_at_once idle]
    exact completeSoftReset_done s
  · rw [softReset_waits ((burst_eq_some _ b).mp hb)]
    exact ⟨rfl, rfl, rfl, rfl, rfl, rfl, rfl, rfl, rfl⟩
  · have owned := (burst_eq_some _ b).mp hb
    obtain ⟨acknowledged, failed⟩ := cycleEnd_pending hp owned
    have done {c : Instr} {t : State} (run : exec c s = .next t) (ends : t = s.completeSoftReset) :
        ∃ t, exec c s = .next t ∧ softResetDone s t :=
      ⟨_, run.trans (congrArg _ ends), completeSoftReset_done s⟩
    refine ⟨fun c hc => ?_, fun due => done (noResponse_due owned due) (failed false),
      noResponse_early owned⟩
    obtain rfl | rfl : c = .wordAck d ∨ c = .errorReply := by simpa using hc
    · exact done rfl (acknowledged d)
    · exact done rfl (failed true)

/-! ## The state after reset (R181) -/

theorem everyLane_reset {P : Lane → Prop} (h : P (.afterReset .low 0 .none)) :
    everyLane P State.reset := fun n => by
  rw [State.lane, State.reset, Eight.get_fill]
  exact h

/-- The front end of a lane after reset does not sample, for its mode is NONE (R7, R16). -/
theorem afterReset_filterOk (line : Level) (stamp : Stamp) (r : LResult) :
    filterOk (.afterReset line stamp r) := nofun

theorem afterReset_workOk (line : Level) (stamp : Stamp) (r : LResult) :
    workOk (.afterReset line stamp r) :=
  ⟨fun h => h.elim nofun (absurd rfl), nofun, fun h => h.elim nofun nofun⟩

theorem afterReset_recordsOk (line : Level) (stamp : Stamp) (r : LResult) :
    recordsOk (.afterReset line stamp r) := ⟨Nat.zero_le _, rfl, nofun⟩

theorem afterReset_fifoOk (line : Level) (stamp : Stamp) (r : LResult) :
    fifoOk (.afterReset line stamp r) := ⟨Nat.zero_le _, nofun⟩

/-- Settles O60: the lanes from what a lane reset leaves of each, the bus from its being IDLE, and the other
blocks by their values. -/
theorem resetMeetsInvariants : Obligations.ResetMeetsInvariants := by
  refine ⟨fun i => ?_, everyLane_reset (afterReset_filterOk _ _ _), (poolOk_iff _).mpr ⟨fun u n h => ?_,
    fun u v n h => ?_⟩, by decide, rfl, by decide, everyLane_reset nofun, by decide,
    everyLane_reset ⟨ringOk_reset, afterReset_workOk _ _ _, afterReset_recordsOk _ _ _,
      afterReset_fifoOk _ _ _, Lane.afterReset_clear _ _ _⟩, nofun, fun idle _ n => ?_⟩
  · rw [State.reset, Eight.get_fill]
    rfl
  · exact absurd ((free_claim u).symm.trans h) nofun
  · exact absurd ((free_claim u).symm.trans h) nofun
  · rw [request_of_idle idle]
    exact everyLane_reset (P := fun l => l.request = none) rfl n

end Sys2Proof.Laws
end

section
/-! SUPPORT. Device control and the register window: the writes to CONTROL and PRESC (O7), what the window
ignores (O10), and the rows that stand behind a write to GCMD, PCMD and LCMD (O12). -/

namespace Sys2Proof.Laws

open Sys2Proof.Machine Sys2Proof.Safety

/-! ## CONTROL and PRESC (R2, R177) -/

section
variable {s : State} (hp : s.ctl.resetPending = false) (w : Word)
include hp

theorem exec_controlWrite : exec (.controlWrite w) s = .next (s.writeControl w) :=
  congrArg Host.Outcome.next (s.hostWrite_taken _ hp)

theorem exec_prescWrite : exec (.prescWrite w) s = .next (s.writePresc w) :=
  congrArg Host.Outcome.next (s.hostWrite_taken _ hp)

end

theorem atWork_iff (l : Lane) : atWork l ↔ l.life.fetches = true := by
  cases h : l.life <;> simp [atWork, h, Life.fetches]

/-- What keeps CONTROL from clearing ENABLE (R177). -/
theorem laneBusy_iff (s : State) : s.laneBusy = true ↔ ∃ n, atWork (s.lane n) := by
  simp only [atWork_iff, State.laneBusy, List.any_eq_true, Eight.mem_numbers, true_and]

section
variable (s : State) {w : Word}

theorem writeControl_same (h : w.getLsbD 0 = s.ctl.enable) : s.writeControl w = s.taken := if_pos h

theorem writeControl_sets (hw : w.getLsbD 0 = true) (off : s.ctl.enable = false) :
    s.writeControl w = { s with
      ctl := { s.ctl with enable := true, refused := false }
      time := { s.time with phase := 0 } } := by
  rw [State.writeControl, hw, off, if_neg Bool.false_ne_true.symm, if_pos rfl]
  rfl

/-- A write that would clear ENABLE is decided by whether a lane is at work. -/
theorem writeControl_clears (hw : w.getLsbD 0 = false) (on : s.ctl.enable = true) :
    s.writeControl w = if s.laneBusy then s.refuse else { s with
      ctl := { s.ctl with enable := false, refused := false }
      time := { s.time with phase := 0 } } := by
  rw [State.writeControl, hw, on, if_neg Bool.false_ne_true, if_neg Bool.false_ne_true]
  rfl

theorem writePresc_refused
    (h : s.ctl.enable = true ∨ w.extractLsb' 0 9 = 0 ∨ 256 < (w.extractLsb' 0 9).toNat) :
    s.writePresc w = s.refuse := if_pos h

theorem writePresc_taken (off : s.ctl.enable = false) (hmin : 1 ≤ (w.extractLsb' 0 9).toNat)
    (hmax : (w.extractLsb' 0 9).toNat ≤ 256) : s.writePresc w = { s with
      ctl := { s.ctl with refused := false }
      time := { s.time with prescale := w.extractLsb' 0 9 } } := by
  refine if_neg ?_
  rintro (on | zero | high)
  · simp [off] at on
  · rw [show w.extractLsb' 0 9 = 0 from zero] at hmin
    exact absurd hmin (by decide)
  · exact absurd hmax (Nat.not_le.mpr high)

end

/-- Settles O7: CONTROL by the value written, the value held and the lanes, PRESC by ENABLE and the range. -/
theorem timebaseControlWrites : Obligations.TimebaseControlWrites := by
  refine ⟨fun s w hp => ?_, fun s w hp => ?_⟩
  · rw [exec_controlWrite hp]
    refine ⟨fun same => ?_, fun hw off => ?_, fun hw on busy => ?_, fun hw on free => ?_⟩
    · rw [writeControl_same s same]
      rfl
    · rw [writeControl_sets s hw off]
    · rw [writeControl_clears s hw on, if_pos ((laneBusy_iff s).mpr busy)]
      rfl
    · rw [writeControl_clears s hw on,
        if_neg fun busy => not_exists.mpr free ((laneBusy_iff s).mp busy)]
  · rw [exec_prescWrite hp]
    refine ⟨fun h => ?_, fun off hmin hmax => ?_⟩
    · rw [writePresc_refused s h]
      rfl
    · rw [writePresc_taken s off hmin hmax]

/-! ## What the window ignores (R174, R175) -/

/-- The global registers a word write reaches: those with rows of their own, and GARG (R182). -/
def writableGlobals : List Nat := 0x00E :: globalRowOffsets

/-- The registers of a lane's block a word write reaches: those with rows of their own, and the plain
configuration registers (R182). -/
def writableLaneRegs : List Nat := laneRowOffsets ++ plainLaneRegs

theorem writeGlobalReg_ignored (s : State) {o : Nat} (h : o ∉ writableGlobals) (w : Word) :
    s.writeGlobalReg o w = s := by
  unfold State.writeGlobalReg
  split
  case h_11 => rfl
  all_goals exact absurd (by decide) h

theorem writeLaneReg_ignored (s : State) (n : LaneId) {r : Nat} (h : r ∉ writableLaneRegs) (w : Word) :
    s.writeLaneReg n r w = s := by
  unfold State.writeLaneReg
  split
  case h_17 => rfl
  all_goals exact absurd (by decide) h

theorem readOnlyGlobals_ignored :
    ∀ o ∈ readOnlyGlobals, o < 0x080 ∧ o ∉ writableGlobals := by decide

theorem readOnlyLaneRegs_ignored : ∀ r ∈ readOnlyLaneRegs, r ∉ writableLaneRegs := by decide

theorem writableGlobals_lt : ∀ o ∈ writableGlobals, o < 0x032 := by decide

theorem writableLaneRegs_lt : ∀ r ∈ writableLaneRegs, r < 0x36 := by decide

/-- Where a read-only register or a hole of the map lies: among the global registers, past the staging set,
or in a lane's block, and at no writable register. -/
theorem ignored_offset {o : Nat} (h : readOnly o = true ∨ unmapped o = true) :
    (o < 0x080 ∧ o ∉ writableGlobals)
    ∨ (0x0B4 ≤ o ∧ ¬ (0x100 ≤ o ∧ o < 0x300))
    ∨ ((0x100 ≤ o ∧ o < 0x300) ∧ (o - 0x100) % 0x40 ∉ writableLaneRegs) := by
  simp only [readOnly, unmapped, Bool.or_eq_true, Bool.and_eq_true, decide_eq_true_eq,
    List.contains_iff_mem] at h
  obtain (hglobal | ⟨block, hlane⟩) | ((⟨low, high⟩ | past) | past) | ⟨low, high, hole⟩ := h
  · exact .inl (readOnlyGlobals_ignored o hglobal)
  · exact .inr (.inr ⟨block, readOnlyLaneRegs_ignored _ hlane⟩)
  · exact .inl ⟨high, fun mem => absurd (writableGlobals_lt o mem) (by omega)⟩
  · exact .inr (.inl (by omega))
  · exact .inr (.inl (by omega))
  · exact .inr (.inr ⟨⟨low, high⟩, fun mem => absurd (writableLaneRegs_lt _ mem) (by omega)⟩)

theorem writeWindow_ignored (s : State) {offset : BitVec 10}
    (h : readOnly (wordOffset offset) = true ∨ unmapped (wordOffset offset) = true) (w : Word) :
    s.writeWindow offset w = s := by
  unfold State.writeWindow
  dsimp only
  obtain ⟨low, hreg⟩ | ⟨past, outside⟩ | ⟨block, hreg⟩ := ignored_offset h
  · rw [if_pos low, writeGlobalReg_ignored s hreg]
  · rw [if_neg (by omega), if_neg (by omega), if_neg outside]
  · rw [if_neg (by omega), if_neg (by omega), if_pos block, writeLaneReg_ignored s _ hreg]

theorem exec_wordWrite_ignored (s : State) {offset : BitVec 10}
    (h : readOnly (wordOffset offset) = true ∨ unmapped (wordOffset offset) = true) (w : Word) :
    exec (.registerWrite .word offset w) s = .next s := by
  obtain ⟨_, k⟩ | ⟨_, k⟩ := s.hostWrite_cases fun t => t.writeWindow offset w <;>
    rw [exec, execRegisterWrite, k]
  rw [writeWindow_ignored s h]

/-- Settles O10: the identification words are constants at read-only offsets, and the window ignores a byte
write and what addresses no writable register. -/
theorem registerWriteAccess : Obligations.RegisterWriteAccess :=
  ⟨fun s => ⟨rfl, rfl, fun w =>
      ⟨exec_wordWrite_ignored s (.inl rfl) w, exec_wordWrite_ignored s (.inl rfl) w⟩⟩,
    fun _ _ _ => rfl, fun s _ w h => exec_wordWrite_ignored s h w,
    fun s _ hp => congrArg Host.Outcome.next (s.hostWrite_taken _ hp)⟩

/-! ## Codes that name no command (R48, R115, R178) -/

section
variable {code : BitVec 4}

/-- A code that is 0 or lies above the last known one names no command. -/
theorem not_between {last : BitVec 4} (h : code = 0 ∨ last.toNat < code.toNat) :
    ¬ (1 ≤ code ∧ code ≤ last) := by
  rintro ⟨low, high⟩
  obtain rfl | above := h
  · exact absurd low (by decide)
  · exact absurd (BitVec.le_def.mp high) (Nat.not_le.mpr above)

theorem not_threeKnown (h : code = 0 ∨ 3 < code.toNat) : ¬ threeKnown code := not_between h

theorem not_lcmdKnown (h : code = 0 ∨ 7 < code.toNat) : ¬ lcmdKnown code := not_between h

theorem globalCommand_unknown (s : State) (h : ¬ threeKnown code) :
    s.globalCommand code = s.refuse := by
  have ne (k : BitVec 4) (hk : threeKnown k) : code ≠ k := fun e => h (e ▸ hk)
  rw [State.globalCommand, if_neg (ne 1 (by decide)), if_neg (ne 2 (by decide)),
    if_neg (ne 3 (by decide))]

theorem profileCommand_unknown (s : State) (ix : ProfileIx) (h : ¬ threeKnown code) :
    s.profileCommand code ix = s.badProfileCommand := by
  have ne (k : BitVec 4) (hk : threeKnown k) : code ≠ k := fun e => h (e ▸ hk)
  rw [State.profileCommand, if_neg (ne 1 (by decide)), if_neg (ne 2 (by decide)),
    if_neg (ne 3 (by decide))]

theorem laneCommand_unknown (s : State) (n : LaneId) (arg : BitVec 12) (h : ¬ lcmdKnown code) :
    s.laneCommand n code arg = s.badLaneCommand n := by
  have ne (k : BitVec 4) (hk : lcmdKnown k) : code ≠ k := fun e => h (e ▸ hk)
  rw [State.laneCommand, if_neg (ne 1 (by decide)), if_neg (ne 2 (by decide)),
    if_neg (ne 3 (by decide)), if_neg (ne 4 (by decide)), if_neg (ne 5 (by decide)),
    if_neg (ne 6 (by decide)), if_neg (ne 7 (by decide))]

theorem exec_gcmdUnknown (s : State) (h : ¬ threeKnown code) :
    exec (.gcmdUnknown code) s = .next (s.hostWrite fun t => t.globalCommand code) := by
  simp only [exec, execGcmdUnknown, if_neg h, globalCommand_unknown _ h]

theorem exec_pcmdBadCommand (s : State) (ix : ProfileIx) (h : ¬ threeKnown code) :
    exec (.pcmdBadCommand code ix) s = .next (s.hostWrite fun t => t.profileCommand code ix) := by
  simp only [exec, execPcmdBadCommand, if_neg h, profileCommand_unknown _ ix h]

theorem exec_lcmdBadCommand (s : State) (n : LaneId) (arg : BitVec 12) (h : ¬ lcmdKnown code) :
    exec (.lcmdBadCommand n code arg) s = .next (s.hostWrite fun t => t.laneCommand n code arg) := by
  simp only [exec, execLcmdBadCommand, if_neg h, laneCommand_unknown _ n arg h]

end

/-! ## The rows behind a word write (R182) -/

section
variable (s : State) (w : Word)

theorem wordWrite_gcmd : exec (.registerWrite .word 0x00C w) s
    = .next (s.hostWrite fun t => t.globalCommand (w.extractLsb' 0 4)) := rfl

theorem wordWrite_pcmd : exec (.registerWrite .word 0x02C w) s
    = .next (s.hostWrite fun t =>
        t.profileCommand (w.extractLsb' 0 4) (w.extractLsb' 8 3).toFin) := rfl

/-- A word write in a lane's block does what the write to that lane's register does. -/
theorem wordWrite_lane (n : LaneId) {r : Nat} (hr : r < 0x40) (even : r % 2 = 0) :
    exec (.registerWrite .word (laneOffset n r) w) s
      = .next (s.hostWrite fun t => t.writeLaneReg n r w) := by
  simp only [exec, execRegisterWrite, writeWindow_lane _ n hr even]

theorem wordWrite_lcmd (n : LaneId) : exec (.registerWrite .word (laneOffset n 0x20) w) s
    = .next (s.hostWrite fun t => t.laneCommand n (w.extractLsb' 0 4) (w.extractLsb' 4 12)) :=
  wordWrite_lane s w n (by decide) rfl

end

/-- Settles O12: an unknown code by R115's, R48's and R178's answers, and a word write by the register it
reaches, whose command is the one its code names. -/
theorem commandCodesAndRowsAgree : Obligations.CommandCodesAndRowsAgree := by
  refine ⟨fun s code hp h => ?_, fun s code ix hp h => ?_, fun s n code arg hp h => ?_, fun s w n => ?_⟩
  · rw [exec_gcmdUnknown s (not_threeKnown h), s.hostWrite_taken _ hp,
      globalCommand_unknown s (not_threeKnown h)]
    rfl
  · rw [exec_pcmdBadCommand s ix (not_threeKnown h), s.hostWrite_taken _ hp,
      profileCommand_unknown s ix (not_threeKnown h)]
    rfl
  · rw [exec_lcmdBadCommand s n arg (not_lcmdKnown h), s.hostWrite_taken _ hp,
      laneCommand_unknown s n arg (not_lcmdKnown h)]
    rfl
  · dsimp only
    rw [wordWrite_gcmd, wordWrite_pcmd, wordWrite_lcmd]
    generalize w.extractLsb' 0 4 = code
    refine ⟨rfl, rfl, rfl, rfl, rfl, rfl, rfl, ?one, ?two, ?three, fun h => ?unknown, ?four, ?five, ?six,
      ?seven, fun h => ?unknownLane, wordWrite_lane s w n (by decide) rfl,
      wordWrite_lane s w n (by decide) rfl, wordWrite_lane s w n (by decide) rfl,
      wordWrite_lane s w n (by decide) rfl, wordWrite_lane s w n (by decide) rfl⟩
    case one | two | three =>
      rintro rfl
      exact ⟨rfl, rfl, rfl⟩
    case four | five | six | seven =>
      rintro rfl
      rfl
    case unknown =>
      exact ⟨(exec_gcmdUnknown s (not_threeKnown h)).symm,
        (exec_pcmdBadCommand s _ (not_threeKnown h)).symm⟩
    case unknownLane => exact (exec_lcmdBadCommand s n _ (not_lcmdKnown h)).symm

end Sys2Proof.Laws
end

section
/-! SUPPORT. The step and the commands that wait: the command at the front of the queue (O1), and that every
command answers a next state and leaves the commands behind it alone (O3). -/

namespace Sys2Proof.Laws

open Sys2Proof.Machine Sys2Proof.Safety

/-- Settles O1: the front of the queue decides which branch of the step is taken. -/
theorem stepRunsFrontCommand : Obligations.StepRunsFrontCommand := by
  intro c rest s front
  unfold step
  rw [front]

/-! ## What leaves the waiting commands alone -/

/-- The commands that wait are unchanged. -/
abbrev waitingKept (s t : State) : Prop := t.pending = s.pending

theorem waitingKept_of_shared {s t : State} (h : sharedKept s t) : waitingKept s t := by
  obtain ⟨hpending, _⟩ := h
  exact hpending

theorem hostWrite_waitingKept (s : State) {f : State → State} (h : waitingKept s (f s)) :
    waitingKept s (s.hostWrite f) := by
  obtain ⟨_, ignored⟩ | ⟨_, taken⟩ := s.hostWrite_cases f
  · rw [ignored]
  · rw [taken]
    exact h

/-! ## Device control and the profile table -/

theorem writeControl_waitingKept (s : State) (w : Word) : waitingKept s (s.writeControl w) := by
  unfold State.writeControl
  split
  · rfl
  · split
    · rfl
    · split <;> rfl

theorem writePresc_waitingKept (s : State) (w : Word) : waitingKept s (s.writePresc w) := by
  unfold State.writePresc
  split <;> rfl

theorem writeResplim_waitingKept (s : State) (w : Word) : waitingKept s (s.writeResplim w) := by
  unfold State.writeResplim
  split <;> rfl

theorem writeIrqctl_waitingKept (s : State) (w : Word) : waitingKept s (s.writeIrqctl w) := by
  unfold State.writeIrqctl
  split <;> rfl

theorem softReset_waitingKept (s : State) : waitingKept s s.softReset := by
  unfold State.softReset
  split <;> rfl

theorem commitProfile_waitingKept (s : State) (ix : ProfileIx) :
    waitingKept s (s.commitProfile ix) := by
  unfold State.commitProfile
  split
  · exact State.raiseRequest_pending _
  · rfl

theorem clearProfile_waitingKept (s : State) (ix : ProfileIx) :
    waitingKept s (s.clearProfile ix) := State.raiseRequest_pending _

/-! ## The register window -/

theorem globalCommand_waitingKept (s : State) (code : BitVec 4) :
    waitingKept s (s.globalCommand code) := by
  unfold State.globalCommand
  split
  · rfl
  · split
    · rfl
    · split
      · exact softReset_waitingKept s
      · rfl

theorem profileCommand_waitingKept (s : State) (code : BitVec 4) (ix : ProfileIx) :
    waitingKept s (s.profileCommand code ix) := by
  unfold State.profileCommand
  split
  · exact commitProfile_waitingKept s ix
  · split
    · exact clearProfile_waitingKept s ix
    · split <;> rfl

theorem writeGlobalReg_waitingKept (s : State) (o : Nat) (w : Word) :
    waitingKept s (s.writeGlobalReg o w) := by
  unfold State.writeGlobalReg
  split
  · exact writeControl_waitingKept s w
  · exact writePresc_waitingKept s w
  · exact writeResplim_waitingKept s w
  · exact globalCommand_waitingKept s _
  · rfl
  · rfl
  · rfl
  · exact writeIrqctl_waitingKept s w
  · rfl
  · exact profileCommand_waitingKept s _ _
  · rfl

theorem writeWindow_waitingKept (s : State) (offset : BitVec 10) (w : Word) :
    waitingKept s (s.writeWindow offset w) := by
  unfold State.writeWindow
  dsimp only
  split
  · exact writeGlobalReg_waitingKept s _ w
  · split
    · rfl
    · split
      · exact waitingKept_of_shared (writeLaneReg_shared _ _ _ _)
      · rfl

/-! ## The end of a word cycle -/

/-- An acknowledge leaves the waiting commands alone, whether it completes a soft reset or not (R179). -/
theorem acknowledge_waitingKept (s : State) (data : Word) : waitingKept s (s.acknowledge data) := by
  cases hp : s.ctl.resetPending with
  | false => exact waitingKept_of_shared (acknowledge_shared s data hp)
  | true => obtain h | h := acknowledge_pending s data hp <;> exact (congrArg State.pending h).trans rfl

/-- As `acknowledge_waitingKept`, for a word cycle that fails. -/
theorem failCycle_waitingKept (s : State) (e : Bool) : waitingKept s (s.failCycle e) := by
  cases hp : s.ctl.resetPending with
  | false => exact waitingKept_of_shared (failCycle_shared s e hp)
  | true => obtain h | h := failCycle_pending s e hp <;> exact (congrArg State.pending h).trans rfl

/-! ## Commands that complete -/

/-- The outcome of a command on `s` is a next state, with the waiting commands left alone. -/
def Completes (s : State) (o : Host.Outcome State Fault Refusal) : Prop :=
  ∃ t, o = .next t ∧ waitingKept s t

section
variable {s t : State}

theorem completes_next (h : waitingKept s t) : Completes s (.next t) := ⟨t, rfl, h⟩

theorem completes_unchanged (s : State) : Completes s (.next s) := completes_next rfl

theorem completes_shared (h : sharedKept s t) : Completes s (.next t) :=
  completes_next (waitingKept_of_shared h)

/-- A report that is not due, or a code of a row of its own, changes nothing (log 1). -/
theorem completes_ite (p : Prop) [Decidable p] {a b : Host.Outcome State Fault Refusal}
    (ha : Completes s a) (hb : Completes s b) : Completes s (if p then a else b) := by
  split
  · exact ha
  · exact hb

theorem completes_write (s : State) {f : State → State} (h : waitingKept s (f s)) :
    Completes s (.next (s.hostWrite f)) := completes_next (hostWrite_waitingKept s h)

theorem completes_laneWrite (s : State) {f : State → State} (h : sharedKept s (f s)) :
    Completes s (.next (s.hostWrite f)) := completes_write s (waitingKept_of_shared h)

end

/-- A timed happening of a lane answers a next state: where it finds what it reports, its guard decides
between two of them (log 1). -/
theorem timed_next {c : Instr} (s : State) (hc : isTimedLane c = true) :
    ∃ t, exec c s = .next t := by
  have guarded (p : Prop) [Decidable p] (t : State) :
      ∃ u, (if p then .next t else .next s : Host.Outcome State Fault Refusal) = .next u := by
    split <;> exact ⟨_, rfl⟩
  cases c with
  | transition n => exact ⟨_, rfl⟩
  | waitPointReached n => exact guarded _ _
  | mtimeoutExpiry n =>
    rw [exec, execMtimeoutExpiry]
    split <;> exact ⟨_, rfl⟩
  | edgeAccepted | gapPointReached | markPointReached | tlimitExpiry | firstIntervalBegin | intervalEnd
  | trailingGapEnd | carrierPhase =>
    simp only [exec, execEdgeAccepted, execGapPointReached, execMarkPointReached, execTlimitExpiry,
      execFirstIntervalBegin, execIntervalEnd, execTrailingGapEnd, execCarrierPhase]
    split
    · exact guarded _ _
    · exact ⟨_, rfl⟩
  | _ => cases hc

theorem timed_completes {c : Instr} (s : State) (hc : isTimedLane c = true) :
    Completes s (exec c s) := by
  obtain ⟨t, run⟩ := timed_next s hc
  rw [run]
  exact completes_shared (timed_shared c s t hc run)

/-- Every write to the register window completes, taken or ignored (R174, R180). -/
theorem windowWrite_completes {c : Instr} (s : State) (hc : isWindowWrite c = true) :
    Completes s (exec c s) := by
  cases c with
  | start n a => exact completes_laneWrite s (startLane_shared s n)
  | stop n a => exact completes_laneWrite s (stopLane_shared s n)
  | abort n a => exact completes_laneWrite s (abortLane_shared s n)
  | skip n a => exact completes_laneWrite s (setLane_shared s n _)
  | flush n a => exact completes_laneWrite s (shared_raise (putLane_shared s n _))
  | recover n a => exact completes_laneWrite s (setLane_shared s n _)
  | reset n a => exact completes_laneWrite s (resetLane_shared s n _)
  | lcmdBadCommand n code a =>
    exact completes_ite _ (completes_unchanged s) (completes_laneWrite s (setLane_shared s n _))
  | snap => exact completes_write s rfl
  | note => exact completes_write s rfl
  | softReset => exact completes_write s (softReset_waitingKept s)
  | gcmdUnknown code => exact completes_ite _ (completes_unchanged s) (completes_write s rfl)
  | commit ix => exact completes_write s (commitProfile_waitingKept s ix)
  | clear ix => exact completes_write s (clearProfile_waitingKept s ix)
  | load ix => exact completes_write s rfl
  | pcmdBadCommand code ix => exact completes_ite _ (completes_unchanged s) (completes_write s rfl)
  | controlWrite w => exact completes_write s (writeControl_waitingKept s w)
  | prescWrite w => exact completes_write s (writePresc_waitingKept s w)
  | resplimWrite w => exact completes_write s (writeResplim_waitingKept s w)
  | irqctlWrite w => exact completes_write s (writeIrqctl_waitingKept s w)
  | irqholdWrite w => exact completes_write s rfl
  | evqpop w => exact completes_write s rfl
  | fclr w => exact completes_write s rfl
  | postedWrite n w => exact completes_laneWrite s (writePostedReg_shared s n w)
  | rbaseWrite n high w => exact completes_laneWrite s (ringWrite_shared s n _)
  | rsizeWrite n w => exact completes_laneWrite s (ringWrite_shared s n _)
  | lcfgWrite n w => exact completes_laneWrite s (lockedWrite_shared s n _)
  | registerWrite size offset w =>
    cases size with
    | byte => exact completes_unchanged s
    | word => exact completes_write s (writeWindow_waitingKept s offset w)
  | _ => cases hc

/-- Every command completes: the window writes, the timed happenings of a lane, and then each happening of the
part and of the bus. -/
theorem exec_completes (c : Instr) (s : State) : Completes s (exec c s) := by
  cases hw : isWindowWrite c with
  | true => exact windowWrite_completes s hw
  | false =>
    cases c with
    | deviceReset => exact completes_next rfl
    | baseTick => exact completes_ite _ (completes_next rfl) (completes_unchanged s)
    | holdoffExpiry => exact completes_ite _ (completes_next rfl) (completes_unchanged s)
    | busGrant => exact completes_shared (grant_shared s)
    | wordAck data => exact completes_next (acknowledge_waitingKept s data)
    | fetchComplete data =>
      rw [exec, execFetchComplete]
      split
      · exact completes_ite _ (completes_next (acknowledge_waitingKept s data)) (completes_unchanged s)
      · exact completes_unchanged s
    | writeBack =>
      rw [exec, execWriteBack]
      split
      · exact completes_ite _ (completes_next (acknowledge_waitingKept s 0)) (completes_unchanged s)
      · exact completes_unchanged s
    | errorReply => exact completes_next (failCycle_waitingKept s true)
    | noResponse =>
      exact completes_ite _ (completes_next (failCycle_waitingKept s false)) (completes_unchanged s)
    | softResetComplete => exact completes_ite _ (completes_next rfl) (completes_unchanged s)
    | transition | edgeAccepted | waitPointReached | gapPointReached | markPointReached | tlimitExpiry
    | mtimeoutExpiry | firstIntervalBegin | intervalEnd | trailingGapEnd | carrierPhase =>
      exact timed_completes s rfl
    | _ => cases hw

/-- Settles O3: every command completes. -/
theorem everyCommandCompletes : Obligations.EveryCommandCompletes := exec_completes

end Sys2Proof.Laws
end

section
/-! SUPPORT. What every step of a lane keeps of the work it holds: the open records stay numbered (R41), work is
held only by a lane at work in its mode (R120), and the FIFO stays within its 32 entries (R28, R96). One lemma
per operation of the engines, the ring controller and the lane commands. -/

namespace Sys2Proof.Machine

open Sys2Proof.Safety

/-! ## The work a lane holds -/

/-- What the sequence rule of R41 reads of a record. -/
abbrev Record.numbering (r : Record) : Word × Word := (r.seq, r.droppedBefore)

/-- The lane holds a current or a finished replay record (R91). -/
abbrev Lane.replays (l : Lane) : Prop :=
  l.rep.current.isSome = true ∨ l.rep.finished.isSome = true

/-- The lane holds no work (R120). -/
structure Lane.idle (l : Lane) : Prop where
  frame : l.cap.frame = none
  records : l.cap.records = []
  result : l.result = none
  replay : ¬ l.replays

/-- The lane is one that a FILL burst with `room` words still to come may serve (R96, R107). -/
abbrev Lane.fills (l : Lane) (room : Nat) : Prop :=
  l.runs .replay ∧ l.replays ∧ l.fifo.length + room ≤ Config.fifoDepth

/-- A kept frame is open. -/
abbrev Lane.keeping (l : Lane) : Prop := ∃ f ∈ l.cap.frame, f.disp = .kept

theorem Lane.idle_of_inactive {l : Lane} (h : l.life.active = false) (work : workOk l) : l.idle := by
  obtain ⟨cap, result, rep⟩ := work
  simp only [Lane.runs, h, Bool.false_eq_true, and_false, imp_false, not_or] at cap result rep
  exact ⟨by simpa using cap.1, by simpa using cap.2, by simpa using result, by simpa [Lane.replays] using rep⟩

/-- A lane of no capture mode holds no frame and no record. -/
theorem Lane.no_frames {l : Lane} (h : l.regs.lmode ≠ .capture) (work : workOk l) :
    l.cap.frame = none ∧ l.cap.records = [] := by
  have nothing : ¬ (l.cap.frame.isSome = true ∨ l.cap.records ≠ []) := fun k => h (work.1 k).1
  simpa [not_or] using nothing

theorem Lane.no_result {l : Lane} (h : l.regs.lmode ≠ .meter) (work : workOk l) : l.result = none := by
  have nothing : ¬ l.result.isSome = true := fun k => h (work.2.1 k).1
  simpa using nothing

theorem Lane.no_replay {l : Lane} (h : l.regs.lmode ≠ .replay) (work : workOk l) : ¬ l.replays :=
  fun k => h (work.2.2 k).1

/-- A lane holding nothing meets the rules of R120 and R41. -/
theorem Lane.idle.work {l : Lane} (h : l.idle) : workOk l := by
  refine ⟨?_, ?_, fun k => absurd k h.replay⟩ <;> simp [h.frame, h.records, h.result]

theorem Lane.idle.numbered {l : Lane} (h : l.idle) : recordsOk l := by
  simp [recordsOk, h.records, Safety.numbered]

/-! ## Numbered records (R41) -/

theorem numbered_congr {rs qs : List Record} (h : rs.map Record.numbering = qs.map Record.numbering) :
    numbered rs = numbered qs := by
  induction rs generalizing qs with
  | nil => rw [List.map_eq_nil_iff.mp h.symm]
  | cons a rs ih =>
    cases qs with
    | nil => cases h
    | cons b qs =>
      obtain ⟨hab, hrest⟩ := List.cons_eq_cons.mp h
      obtain ⟨hseq, _⟩ := Prod.mk.inj hab
      cases rs with
      | nil => rw [List.map_eq_nil_iff.mp hrest.symm]; rfl
      | cons a' rs =>
        cases qs with
        | nil => cases hrest
        | cons b' qs =>
          obtain ⟨hseq', hdropped'⟩ := Prod.mk.inj (List.cons_eq_cons.mp hrest).1
          simp only [numbered, hseq, hseq', hdropped', ih hrest]

/-- The sequence rule reads the records' numbers alone. -/
theorem recordsOk_congr {l k : Lane}
    (records : k.cap.records.map Record.numbering = l.cap.records.map Record.numbering)
    (seq : k.seq = l.seq) (dropped : k.dropped = l.dropped) (h : recordsOk l) : recordsOk k := by
  obtain ⟨count, order, newest⟩ := h
  refine ⟨?_, (numbered_congr records).trans order, fun r hr => ?_⟩
  · have := congrArg List.length records
    simp only [List.length_map] at this
    omega
  · have last := congrArg List.getLast? records
    rw [List.getLast?_map, List.getLast?_map, Option.mem_def.mp hr] at last
    obtain ⟨q, hq, hnum⟩ := Option.map_eq_some_iff.mp last.symm
    obtain ⟨hs, _⟩ := Prod.mk.inj hnum
    rw [seq, dropped, newest q hq, hs]

/-- One more record after at most one, numbered as R22 and R25 number it. -/
theorem recordsOk_concat {l k : Lane} {r : Record} (few : l.cap.records.length < 2)
    (records : k.cap.records = l.cap.records ++ [r]) (seq : k.seq = l.seq + 1) (dropped : k.dropped = 0)
    (number : r.seq = l.seq) (before : r.droppedBefore = l.dropped) (h : recordsOk l) : recordsOk k := by
  obtain ⟨_, _, newest⟩ := h
  refine ⟨by simp [records]; omega, ?_, fun q hq => ?_⟩
  · rw [records]
    match hl : l.cap.records with
    | [] => rfl
    | [a] => simp [numbered, number, before, newest a (by simp [hl])]
    | _ :: _ :: _ => simp [hl] at few
  · simp only [records, List.getLast?_concat, Option.mem_def, Option.some.injEq] at hq
    simp [← hq, seq, dropped, number]

/-! ## Steps of a lane -/

/-- What a step of a lane keeps whatever burst is in progress. -/
structure LaneSafe (l k : Lane) : Prop where
  work : workOk l → workOk k
  records : workOk l → recordsOk l → recordsOk k
  fifo : workOk l → fifoOk l → fifoOk k

/-- What a step of a lane keeps that a FILL burst may be serving. -/
structure WorkStep (l k : Lane) : Prop extends LaneSafe l k where
  fill : workOk l → ∀ room, l.fills room → k.fills room

theorem LaneSafe.after {l m k : Lane} (g : LaneSafe m k) (h : LaneSafe l m) : LaneSafe l k :=
  ⟨g.work ∘ h.work, fun w => g.records (h.work w) ∘ h.records w,
    fun w => g.fifo (h.work w) ∘ h.fifo w⟩

theorem WorkStep.after {l m k : Lane} (g : WorkStep m k) (h : WorkStep l m) : WorkStep l k :=
  ⟨g.toLaneSafe.after h.toLaneSafe, fun w room => g.fill (h.work w) room ∘ h.fill w room⟩

/-- A step that takes no sequence number and comes to hold no work: the mode and the activity stay, and what
is held was held before. -/
structure SameWork (l k : Lane) : Prop where
  mode : k.regs.lmode = l.regs.lmode
  active : k.life.active = l.life.active
  frame : ∀ f ∈ k.cap.frame, ∃ g ∈ l.cap.frame, f.disp = g.disp
  records : k.cap.records.map Record.numbering = l.cap.records.map Record.numbering
  seq : k.seq = l.seq
  dropped : k.dropped = l.dropped
  result : k.result.isSome = true → l.result.isSome = true
  replay : k.replays ↔ l.replays

theorem SameWork.runs {l k : Lane} (h : SameWork l k) (m : LMode) : k.runs m ↔ l.runs m := by
  rw [Lane.runs, Lane.runs, h.mode, h.active]

theorem SameWork.work {l k : Lane} (h : SameWork l k) (w : workOk l) : workOk k := by
  obtain ⟨cap, result, rep⟩ := w
  refine ⟨fun held => (h.runs _).mpr (cap (held.imp (fun hf => ?_) fun hr hn => hr ?_)),
    fun held => (h.runs _).mpr (result (h.result held)),
    fun held => (h.runs _).mpr (rep (h.replay.mp held))⟩
  · obtain ⟨f, hf⟩ := Option.isSome_iff_exists.mp hf
    obtain ⟨g, hg, _⟩ := h.frame f hf
    exact Option.isSome_of_mem hg
  · simpa [hn] using h.records

theorem SameWork.numbered {l k : Lane} (h : SameWork l k) : recordsOk l → recordsOk k :=
  recordsOk_congr h.records h.seq h.dropped

theorem SameWork.keeping {l k : Lane} (h : SameWork l k) (hk : k.keeping) : l.keeping := by
  obtain ⟨f, hf, kept⟩ := hk
  obtain ⟨g, hg, same⟩ := h.frame f hf
  exact ⟨g, hg, same ▸ kept⟩

/-- `fifoOk` says that a kept frame leaves an entry free. -/
theorem fifoOk_iff (l : Lane) : fifoOk l ↔ l.fifo.length ≤ Config.fifoDepth
    ∧ (l.keeping → l.fifo.length + 1 ≤ Config.fifoDepth) := by
  simp only [fifoOk, Lane.keeping, forall_exists_index, and_imp]

/-- A step that holds the same work, with a FIFO no longer than before. -/
theorem SameWork.step {l k : Lane} (h : SameWork l k) (fifo : k.fifo.length ≤ l.fifo.length) :
    WorkStep l k := by
  refine ⟨⟨h.work, fun _ => h.numbered, fun _ hf => ?_⟩,
    fun _ room ⟨run, rep, hr⟩ => ⟨(h.runs _).mpr run, h.replay.mpr rep, by omega⟩⟩
  obtain ⟨all, kept⟩ := (fifoOk_iff l).mp hf
  exact (fifoOk_iff k).mpr ⟨by omega, fun hk => by have := kept (h.keeping hk); omega⟩

/-- A capture lane's step that holds the same work, and whose FIFO stays right. -/
theorem SameWork.capture {l k : Lane} (h : SameWork l k) (held : l.cap.frame.isSome = true)
    (fifo : fifoOk l → fifoOk k) : WorkStep l k :=
  ⟨⟨h.work, fun _ => h.numbered, fun _ => fifo⟩,
    fun w _ ⟨run, _⟩ => by have := (w.1 (.inl held)).1; rw [run.1] at this; cases this⟩

/-- A step in which nothing but fields no rule of work reads changes. -/
theorem WorkStep.same {l k : Lane} (regs : k.regs.lmode = l.regs.lmode) (life : k.life.active = l.life.active)
    (cap : k.cap.frame = l.cap.frame) (records : k.cap.records = l.cap.records) (seq : k.seq = l.seq)
    (dropped : k.dropped = l.dropped) (result : k.result = l.result) (rep : k.replays ↔ l.replays)
    (fifo : k.fifo.length ≤ l.fifo.length) : WorkStep l k :=
  SameWork.step ⟨regs, life, fun f hf => ⟨f, cap ▸ hf, rfl⟩, by rw [records], seq, dropped,
    by rw [result]; exact id, rep⟩ fifo

theorem WorkStep.refl (l : Lane) : WorkStep l l :=
  .same rfl rfl rfl rfl rfl rfl rfl .rfl le_rfl

/-- A change of the ring controller alone. -/
theorem WorkStep.ofRing (l : Lane) (r : Ring) : WorkStep l { l with ring := r } :=
  .same rfl rfl rfl rfl rfl rfl rfl .rfl le_rfl

/-- A change of the replay engine, which holds a record as before. -/
theorem WorkStep.ofReplay {l k : Lane} (rep : k.replays ↔ l.replays) (fifo : k.fifo.length ≤ l.fifo.length)
    (h : k = { l with rep := k.rep, fifo := k.fifo }) : WorkStep l k :=
  .same (by rw [h]) (by rw [h]) (by rw [h]) (by rw [h]) (by rw [h]) (by rw [h]) (by rw [h]) rep fifo

/-- A step that leaves the lane with no work. -/
theorem LaneSafe.ofIdle {l k : Lane} (after : workOk l → k.idle) (fifo : k.fifo.length ≤ l.fifo.length) :
    LaneSafe l k := by
  refine ⟨fun w => (after w).work, fun w _ => (after w).numbered, fun w ⟨all, _⟩ => ⟨by omega, ?_⟩⟩
  simp [(after w).frame]

/-- A step of a lane that holds no work, and comes to hold none. -/
theorem WorkStep.ofIdle {l k : Lane} (before : workOk l → l.idle) (after : l.idle → k.idle)
    (fifo : k.fifo.length ≤ l.fifo.length) : WorkStep l k :=
  ⟨.ofIdle (after ∘ before) fifo, fun w _ ⟨_, rep, _⟩ => absurd rep (before w).replay⟩

/-- A step of a lane not at work that touches no engine. -/
theorem WorkStep.ofInactive {l k : Lane} (inactive : l.life.active = false) (cap : k.cap = l.cap)
    (result : k.result = l.result) (rep : k.rep = l.rep) (fifo : k.fifo = l.fifo) : WorkStep l k :=
  .ofIdle (l.idle_of_inactive inactive)
    (fun ⟨hf, hr, hres, hrep⟩ => ⟨cap ▸ hf, cap ▸ hr, result ▸ hres, by rwa [Lane.replays, rep]⟩)
    (by rw [fifo])

/-- A frame or a result is lost: it takes a number and is counted (R22, R81). -/
theorem WorkStep.ofLost {l k : Lane} (mode : l.regs.lmode ≠ .replay) (work : workOk l → workOk k)
    (keeping : k.keeping → l.keeping) (records : k.cap.records = l.cap.records) (seq : k.seq = l.seq + 1)
    (dropped : k.dropped = l.dropped + 1) (fifo : k.fifo = l.fifo) : WorkStep l k := by
  refine ⟨⟨work, fun _ ⟨few, order, newest⟩ => ?_, fun _ h => ?_⟩, fun _ _ ⟨run, _⟩ => absurd run.1 mode⟩
  · refine ⟨by rw [records]; exact few, by rw [records]; exact order, fun r hr => ?_⟩
    rw [records] at hr
    rw [seq, dropped, newest r hr, add_assoc]
  · obtain ⟨all, kept⟩ := (fifoOk_iff l).mp h
    rw [fifoOk_iff, fifo]
    exact ⟨all, kept ∘ keeping⟩

/-! ## The ring controller -/

theorem Lane.requestFetch_work (l : Lane) : WorkStep l l.requestFetch := by
  rw [l.requestFetch_eq]
  exact .ofRing l _

theorem Lane.reportDry_work (l : Lane) : WorkStep l l.reportDry.lane := by
  obtain ⟨_, _, h⟩ | ⟨_, h⟩ := l.reportDry_cases <;> rw [h]
  · exact .ofRing l _
  · exact .refl l

/-- A lane becomes STOPPED with no work left to it (R120). -/
theorem Lane.becomeStopped_work (l : Lane) (h : workOk l → l.idle) : WorkStep l l.becomeStopped :=
  .ofIdle h (fun ⟨hf, hr, hres, hrep⟩ => ⟨hf, hr, hres, hrep⟩) le_rfl

theorem Lane.finishStopping_work (l : Lane) (h : workOk l → l.idle) :
    WorkStep l l.finishStopping.lane := by
  obtain ⟨_, _, k⟩ | ⟨_, k⟩ := l.finishStopping_cases <;> rw [k]
  · exact l.becomeStopped_work h
  · exact .refl l

theorem Life.inactive_of_flushing {l : Life} (h : l.isFlushing = true) : l.active = false := by
  cases l <;> first | rfl | cases h

theorem Lane.checkFlush_work (l : Lane) : WorkStep l l.checkFlush.lane := by
  obtain ⟨hl, _, _, _, h⟩ | ⟨_, h⟩ := l.checkFlush_cases <;> rw [h]
  · exact l.becomeStopped_work (l.idle_of_inactive (Life.inactive_of_flushing hl))
  · exact .refl l

theorem Lane.returnDone_work (l : Lane) : WorkStep l l.returnDone.lane := by
  obtain ⟨_, h⟩ | ⟨t, _, l1, rfl, ⟨hl, h⟩ | ⟨_, h⟩⟩ := l.returnDone_cases <;> rw [h]
  · exact .refl l
  · exact (Lane.becomeStopped_work _ (Lane.idle_of_inactive (by rw [hl]; rfl))).after (.ofRing l _)
  · exact (Lane.checkFlush_work _).after ((Lane.requestFetch_work _).after (.ofRing l _))

theorem Lane.fetchWord_work (l : Lane) (data : Word) : WorkStep l (l.fetchWord data) := by
  unfold Lane.fetchWord
  split
  · exact .ofRing l _
  · exact .refl l

theorem Lane.takeFetched_work (l : Lane) (d : Desc) : WorkStep l (l.takeFetched d) := by
  unfold Lane.takeFetched
  split <;> exact .ofRing l _

theorem Lane.writePosted_work (l : Lane) (w : Word) : WorkStep l (l.writePosted w).lane := by
  obtain ⟨_, h⟩ | ⟨_, h⟩ := l.writePosted_cases w <;> rw [h]
  · exact .ofRing l _
  · exact (Lane.checkFlush_work _).after ((Lane.requestFetch_work _).after (.ofRing l _))

/-! ## The frame assembler -/

/-- A change of the assembler's sub-state and of its waiting decision alone. -/
theorem WorkStep.ofAssembler (l : Lane) (c : CState) (waiting : Bool) :
    WorkStep l { l with cap := { l.cap with cstate := c, waiting := waiting } } :=
  .same rfl rfl rfl rfl rfl rfl rfl .rfl le_rfl

theorem Lane.settleMarkers_numbering (l : Lane) :
    l.settleMarkers.cap.records.map Record.numbering = l.cap.records.map Record.numbering :=
  dropMarkers_map _ (fun _ => rfl) _ _

theorem Lane.settleMarkers_work (l : Lane) : WorkStep l l.settleMarkers :=
  SameWork.step ⟨rfl, rfl, fun f hf => ⟨f, hf, rfl⟩, l.settleMarkers_numbering, rfl, rfl, id, .rfl⟩
    (dropMarkers_fifo_length _ _)

theorem Lane.mapOldest_work (l : Lane) (f : Record → Record) (number : ∀ r, (f r).numbering = r.numbering) :
    WorkStep l (l.mapOldest f) := by
  obtain ⟨_, h⟩ | ⟨r, rs, hr, h⟩ := l.mapOldest_cases f <;> rw [h]
  · exact .refl l
  · exact SameWork.step ⟨rfl, rfl, fun f hf => ⟨f, hf, rfl⟩, by simp [hr, number r], rfl, rfl, id, .rfl⟩ le_rfl

/-- A close leaves no frame, the records' numbers, and at most one more entry in the FIFO, and that for a kept
frame alone (R31). -/
theorem Lane.closeFrame_leaves (l : Lane) (table : Eight Profile) (f : Frame) (why : Close) :
    (l.closeFrame table f why).cap.frame = none
    ∧ (l.closeFrame table f why).cap.records.map Record.numbering = l.cap.records.map Record.numbering
    ∧ (l.closeFrame table f why).fifo.length ≤ l.fifo.length + if f.disp = .kept then 1 else 0 := by
  obtain ⟨w, ⟨hd, h⟩ | ⟨hd, dec, h⟩⟩ := l.closeFrame_cases table f why <;> rw [h]
  · exact ⟨rfl, rfl, by simp⟩
  · refine ⟨rfl, (Lane.settleMarkers_numbering _).trans (mapNewestRecord_map _ (fun r => r.closeWith f why dec)
      (fun _ => rfl) _), ?_⟩
    have shorter := dropMarkers_fifo_length (l.fifo ++ [FifoEntry.endMarker])
      (mapNewestRecord (fun r => r.closeWith f why dec) l.cap.records)
    simpa [Lane.settleMarkers, hd] using shorter

/-- A close of the lane `l`, whose FIFO alone has been changed to `m`'s since, is a step of `l`. -/
theorem Lane.closeFrame_same {l m : Lane} (table : Eight Profile) (f : Frame) (why : Close)
    (h : SameWork l m) : SameWork l (m.closeFrame table f why) := by
  obtain ⟨frame, numbers, _⟩ := m.closeFrame_leaves table f why
  refine ⟨?_, ?_, by simp [frame], numbers.trans h.records, ?_, ?_, ?_, ?_⟩ <;> rw [m.closeFrame_eq]
  · exact h.mode
  · exact h.active
  · exact h.seq
  · exact h.dropped
  · exact h.result
  · exact h.replay

/-- A frame is open, and is kept if `f` is. -/
abbrev Lane.opened (l : Lane) (f : Frame) : Prop := ∃ g ∈ l.cap.frame, f.disp = g.disp

theorem Lane.opened.isSome {l : Lane} {f : Frame} (h : l.opened f) : l.cap.frame.isSome = true := by
  obtain ⟨_, hg, _⟩ := h
  exact Option.isSome_of_mem hg

theorem Lane.opened.keeping {l : Lane} {f : Frame} (h : l.opened f) (kept : f.disp = .kept) : l.keeping := by
  obtain ⟨g, hg, same⟩ := h
  exact ⟨g, hg, same ▸ kept⟩

theorem Lane.opened_of_mem {l : Lane} {f : Frame} (h : l.cap.frame = some f) : l.opened f := ⟨f, h, rfl⟩

theorem SameWork.refl (l : Lane) : SameWork l l :=
  ⟨rfl, rfl, fun f hf => ⟨f, hf, rfl⟩, rfl, rfl, rfl, id, .rfl⟩

/-- The FIFO of a lane that has closed its frame has at most 32 entries, where one was free for the end
marker. -/
theorem Lane.closeFrame_fifoOk (l : Lane) (table : Eight Profile) (f : Frame) (why : Close)
    (room : l.fifo.length + (if f.disp = .kept then 1 else 0) ≤ Config.fifoDepth) :
    fifoOk (l.closeFrame table f why) := by
  obtain ⟨frame, _, fifo⟩ := l.closeFrame_leaves table f why
  exact ⟨fifo.trans room, by simp [frame]⟩

/-- An open frame leaves room for the end marker it may put (R31). -/
theorem Lane.opened.room {l : Lane} {f : Frame} (h : l.opened f) (ok : fifoOk l) :
    l.fifo.length + (if f.disp = .kept then 1 else 0) ≤ Config.fifoDepth := by
  obtain ⟨all, kept⟩ := (fifoOk_iff l).mp ok
  split
  · next hk => exact kept (h.keeping hk)
  · exact all

theorem Lane.closeFrame_work (l : Lane) (table : Eight Profile) (f : Frame) (why : Close)
    (h : l.opened f) : WorkStep l (l.closeFrame table f why) :=
  SameWork.capture (Lane.closeFrame_same table f why (.refl l)) h.isSome
    fun ok => l.closeFrame_fifoOk table f why (h.room ok)

/-- Storing an interval while two entries are free leaves one for the end marker (R28). -/
theorem fifoRoom_concat {fifo : List FifoEntry} (e : FifoEntry) (h : fifoRoom fifo) :
    (fifo ++ [e]).length + 1 ≤ Config.fifoDepth := by
  rw [List.length_append]
  exact h

/-- A STUCK close stores MAXMARK only while two entries are free, so that the end marker has room (R33). -/
theorem Lane.closeStuck_work (l : Lane) (table : Eight Profile) (f : Frame) (h : l.opened f) :
    WorkStep l (l.closeStuck table f) := by
  have unstored (ms : Eight Matcher) (g : Frame) (same : g.disp = f.disp) :
      WorkStep l (Lane.closeFrame { l with matchers := ms } table g .stuck) :=
    (Lane.closeFrame_work { l with matchers := ms } table g .stuck
      (by unfold Lane.opened; rw [same]; exact h)).after (.same rfl rfl rfl rfl rfl rfl rfl .rfl le_rfl)
  unfold Lane.closeStuck
  dsimp only
  split
  · next kept =>
    split
    · next room =>
      refine SameWork.capture (Lane.closeFrame_same _ _ _
        ⟨rfl, rfl, fun f hf => ⟨f, hf, rfl⟩, rfl, rfl, rfl, id, .rfl⟩) h.isSome fun _ => ?_
      refine Lane.closeFrame_fifoOk _ _ _ _ ?_
      rw [if_pos kept]
      exact fifoRoom_concat _ room.2
    · exact unstored _ _ rfl
  · exact unstored l.matchers _ rfl

/-- The lane once frame `f` stands in the place of the open frame. -/
theorem Lane.setFrame_work (l : Lane) (f : Frame) (h : l.opened f) :
    WorkStep l { l with cap := { l.cap with frame := some f } } :=
  SameWork.step ⟨rfl, rfl, fun g hg => by obtain rfl := Option.some.inj hg; exact h, rfl, rfl, rfl, id, .rfl⟩
    le_rfl

theorem Lane.checkFull_same {l m : Lane} (table : Eight Profile) (f : Frame) (h : SameWork l m)
    (open' : l.opened f) : SameWork l (m.checkFull table f) := by
  unfold Lane.checkFull
  split
  · exact Lane.closeFrame_same _ _ _ h
  · exact ⟨h.mode, h.active, fun g hg => by obtain rfl := Option.some.inj hg; exact open', h.records, h.seq,
      h.dropped, h.result, h.replay⟩

theorem Lane.checkFull_fifoOk (l : Lane) (table : Eight Profile) (f : Frame)
    (room : l.fifo.length + (if f.disp = .kept then 1 else 0) ≤ Config.fifoDepth) :
    fifoOk (l.checkFull table f) := by
  unfold Lane.checkFull
  split
  · exact l.closeFrame_fifoOk _ _ _ room
  · refine ⟨by dsimp only; omega, fun g hg kept => ?_⟩
    obtain rfl := Option.some.inj hg
    simpa [kept] using room

/-- An interval is stored only while two entries are free (R28). -/
theorem Lane.endInterval_work (l : Lane) (table : Eight Profile) (active : Bool) (e : EdgeStamp)
    (f : Frame) (h : l.opened f) : WorkStep l (l.endInterval table active e f) := by
  have same (fifo : List FifoEntry) (ms : Eight Matcher) :
      SameWork l { l with fifo := fifo, matchers := ms } :=
    ⟨rfl, rfl, fun f hf => ⟨f, hf, rfl⟩, rfl, rfl, rfl, id, .rfl⟩
  unfold Lane.endInterval
  dsimp only
  split
  · next kept =>
    split
    · split
      · next room =>
        refine SameWork.capture (Lane.checkFull_same table _ (same _ _) h) h.isSome fun _ => ?_
        refine Lane.checkFull_fifoOk _ _ _ ?_
        rw [if_pos kept]
        exact fifoRoom_concat _ room
      · exact l.closeFrame_work _ _ _ h
    · exact SameWork.capture (Lane.checkFull_same table _ (same _ _) h) h.isSome
        fun ok => Lane.checkFull_fifoOk _ _ _ (h.room ok)
  · exact SameWork.capture (Lane.checkFull_same table _ (same l.fifo l.matchers) h) h.isSome
      fun ok => Lane.checkFull_fifoOk _ _ _ (h.room ok)

/-- A frame that begins takes the next number; a kept one puts its record behind at most one other (R22,
R25). -/
theorem Lane.beginFrame_work (l : Lane) (table : Eight Profile) (e : EdgeStamp) (run : l.runs .capture) :
    WorkStep l (l.beginFrame table e).lane := by
  have mode : l.regs.lmode ≠ .replay := by simp [run.1]
  have lost (k : Lane) (disp : Disposition) (hd : disp ≠ .kept)
      (h : k = { l with
        seq := l.seq + 1, dropped := l.dropped + 1, skipCount := k.skipCount, dropWhy := k.dropWhy
        ring := k.ring, cap := { l.cap with
          cstate := .inFrame, waiting := false, frame := some (Frame.begin e l.seq disp) } }) :
      WorkStep l k := by
    rw [h]
    refine .ofLost mode (fun ⟨_, result, rep⟩ => ⟨fun _ => run, result, rep⟩) ?_ rfl rfl rfl rfl
    rintro ⟨f, hf, kept⟩
    obtain rfl := Option.some.inj hf
    exact absurd kept hd
  unfold Lane.beginFrame
  dsimp only
  split
  · exact lost _ .skipped (by simp) rfl
  · split
    · exact lost _ .dropped (by simp) rfl
    · next free =>
      obtain ⟨few, room⟩ := not_or.mp free
      split
      · refine (Lane.requestFetch_work _).after
          ⟨⟨fun ⟨_, result, rep⟩ => ⟨fun _ => run, result, rep⟩,
            fun _ => recordsOk_concat (not_le.mp few) rfl rfl rfl rfl rfl,
            fun _ _ => ⟨(not_le.mp room).le, fun _ _ _ => not_le.mp room⟩⟩,
          fun _ _ ⟨other, _⟩ => absurd other.1 mode⟩
      · exact (Lane.reportDry_work _).after (lost _ .dropped (by simp) rfl)

theorem Lane.judgeMarkStart_work (l : Lane) (table : Eight Profile) (now : Stamp) :
    WorkStep l (l.judgeMarkStart table now) := by
  unfold Lane.judgeMarkStart
  split
  · exact .refl l
  · next f hf =>
    split
    · exact l.closeFrame_work _ _ _ (Lane.opened_of_mem hf)
    · split
      · exact l.closeStuck_work _ _ (Lane.opened_of_mem hf)
      · exact .refl l

theorem Lane.idle_of_capture {l : Lane} (mode : l.regs.lmode = .capture) (frame : l.cap.frame = none)
    (records : l.cap.records = []) (w : workOk l) : l.idle :=
  ⟨frame, records, Lane.no_result (by simp [mode]) w, Lane.no_replay (by simp [mode]) w⟩

theorem Lane.finishCapture_work (l : Lane) : WorkStep l l.finishCapture.lane := by
  obtain ⟨e, mode, frame, records, _, h⟩ | h := l.finishCapture_cases <;> rw [h]
  · exact (Lane.becomeStopped_work { l with cap := { l.cap with cstate := .inactive, waiting := false } }
      (Lane.idle_of_capture mode frame records)).after (.ofAssembler l _ _)
  · exact .refl l

theorem WorkStep.thenFinish {l k : Lane} (h : WorkStep l k) : WorkStep l k.finishCapture.lane :=
  k.finishCapture_work.after h

theorem Lane.captureEdge_work (l : Lane) (table : Eight Profile) (now : Stamp) (active : Bool)
    (e : EdgeStamp) (run : l.runs .capture) : WorkStep l (l.captureEdge table now active e).lane := by
  have settled := WorkStep.ofAssembler l l.cap.cstate false
  unfold Lane.captureEdge
  dsimp only
  split
  · split
    · exact (Lane.judgeMarkStart_work _ _ _).after ((Lane.beginFrame_work { l with
        cap := { l.cap with waiting := false } } _ _ run).after settled)
    · exact settled
  · next f _ hf =>
    have ended := (Lane.endInterval_work { l with cap := { l.cap with waiting := false } } table active e f
      (Lane.opened_of_mem hf)).after settled
    refine WorkStep.thenFinish ?_
    split
    · next g hg =>
      split
      · exact (Lane.closeStuck_work _ _ _ (Lane.opened_of_mem hg)).after ended
      · exact ended
    · exact ended
  · exact settled

theorem Lane.limitClose_work (l : Lane) (table : Eight Profile) (f : Frame) (h : l.opened f) :
    WorkStep l (l.limitClose table f) := by
  unfold Lane.limitClose
  split
  · exact l.closeStuck_work _ _ h
  · exact l.closeFrame_work _ _ _ h

theorem Lane.captureGlitch_work (l : Lane) (table : Eight Profile) :
    WorkStep l (l.captureGlitch table).lane := by
  have counted (f : Frame) (hf : l.cap.frame = some f) : WorkStep l { l with
      cap := { l.cap with waiting := false, frame := some f.glitched } } :=
    (Lane.setFrame_work { l with cap := { l.cap with waiting := false } } f.glitched ⟨f, hf, rfl⟩).after
      (.ofAssembler l _ _)
  obtain ⟨f, _, hf, _, h⟩ | ⟨f, _, hf, _, h⟩ | ⟨_, _, h⟩ | ⟨_, _, h⟩ :=
    l.captureGlitch_cases table <;> rw [h]
  · exact ((Lane.limitClose_work _ _ _ ⟨f.glitched, rfl, rfl⟩).after (counted f hf)).thenFinish
  · exact counted f hf
  all_goals exact .ofAssembler l _ _

theorem Lane.reachFramePoint_work (l : Lane) (table : Eight Profile) (f : Frame) (h : l.opened f) :
    WorkStep l (l.reachFramePoint table f).lane := by
  rw [l.reachFramePoint_eq]
  split
  · exact .ofAssembler l _ _
  · exact (l.limitClose_work table f h).thenFinish

theorem Lane.reachWaitPoint_work (l : Lane) : WorkStep l l.reachWaitPoint := by
  unfold Lane.reachWaitPoint
  split <;> exact .ofAssembler l _ _

theorem Lane.abortCapture_work (l : Lane) (table : Eight Profile) :
    WorkStep l (l.abortCapture table).lane := by
  unfold Lane.abortCapture
  dsimp only
  refine WorkStep.thenFinish ?_
  split
  · next f hf =>
    exact (WorkStep.ofAssembler _ _ _).after (l.closeFrame_work _ _ _ (Lane.opened_of_mem hf))
  · exact .ofAssembler l _ _

theorem Lane.drainWord_work (l : Lane) : WorkStep l l.drainWord :=
  (Lane.settleMarkers_work _).after
    ((Lane.mapOldest_work { l with fifo := l.fifo.tail } (fun r => { r with drained := r.drained + 1 })
      fun _ => rfl).after (.same rfl rfl rfl rfl rfl rfl rfl .rfl (by simp)))

/-- The oldest record leaves the list (R41). -/
theorem Lane.recordDone_work (l : Lane) : WorkStep l l.recordDone.lane := by
  unfold Lane.recordDone
  split
  · exact .refl l
  · next r rs hr =>
    refine WorkStep.thenFinish ⟨⟨fun ⟨cap, result, rep⟩ => ⟨fun _ => cap (.inr (by simp [hr])), result, rep⟩,
      fun _ ⟨few, order, newest⟩ => ?_, fun _ h => h⟩, fun _ _ h => h⟩
    rw [hr] at few order newest
    cases rs with
    | nil => exact ⟨by simp, rfl, by simp⟩
    | cons q rs =>
      refine ⟨Nat.le_of_succ_le few, ?_, fun x hx => newest x ?_⟩
      · simp only [numbered, Bool.and_eq_true] at order
        exact order.2
      · rwa [List.getLast?_cons_cons]

theorem Lane.headerDone_work (l : Lane) : WorkStep l l.headerDone := by
  unfold Lane.headerDone
  split
  · exact l.mapOldest_work _ fun _ => rfl
  · exact SameWork.step ⟨rfl, rfl, fun f hf => ⟨f, hf, rfl⟩, rfl, rfl, rfl, by simp, .rfl⟩ le_rfl
  · exact .refl l

end Sys2Proof.Machine
end

section
/-! SUPPORT. The work a lane holds, continued: the meter units, the replay engine, the words of a burst, and the
faults, resets and commands of a lane. -/

namespace Sys2Proof.Machine

open Sys2Proof.Safety

/-! ## The meter units -/

theorem Lane.idle_of_meter {l : Lane} (mode : l.regs.lmode = .meter) (result : l.result = none)
    (w : workOk l) : l.idle :=
  have ⟨frame, records⟩ := Lane.no_frames (by simp [mode]) w
  ⟨frame, records, result, Lane.no_replay (by simp [mode]) w⟩

/-- A result that is bound or lost takes a number, on a lane with no records (R81). -/
theorem Lane.disposeResult_work (l : Lane) (u : MeterUnit) (unit : UnitId) (why : Close)
    (run : l.runs .meter) : WorkStep l (l.disposeResult u unit why).lane := by
  have mode : l.regs.lmode ≠ .replay := by simp [run.1]
  have unframed (w : workOk l) := Lane.no_frames (l := l) (by simp [run.1]) w
  obtain ⟨_, h⟩ | ⟨_, _, h⟩ | ⟨d, ring, _, _, _, h⟩ | ⟨ring, _, _, _, h⟩ :=
    l.disposeResult_cases u unit why <;> rw [h]
  · exact .ofLost mode id id rfl rfl rfl rfl
  · exact .ofLost mode id id rfl rfl rfl rfl
  · refine (Lane.requestFetch_work _).after ⟨⟨fun ⟨cap, _, rep⟩ => ⟨cap, fun _ => run, rep⟩,
      fun w _ => ?_, fun _ => id⟩, fun _ _ ⟨other, _⟩ => absurd other.1 mode⟩
    simp [recordsOk, (unframed w).2, numbered]
  · exact (Lane.reportDry_work _).after (.ofLost mode id id rfl rfl rfl rfl)

theorem Lane.finishMeter_work (l : Lane) (u : MeterUnit) (mode : l.regs.lmode = .meter) :
    WorkStep l (l.finishMeter u).lane := by
  obtain ⟨_, result, _, h⟩ | ⟨_, result, _, h⟩ | ⟨_, h⟩ := l.finishMeter_cases u <;> rw [h]
  · exact l.becomeStopped_work (Lane.idle_of_meter mode result)
  · exact l.finishStopping_work (Lane.idle_of_meter mode result)
  · exact .refl l

theorem Lane.endMeasurement_work (l : Lane) (u : MeterUnit) (unit : UnitId) (why : Close)
    (now edge : Stamp) (run : l.runs .meter) :
    WorkStep l (l.endMeasurement u unit why now edge).lane :=
  (Lane.finishMeter_work _ _ (by rw [(l.disposeResult_step u unit why).regs]; exact run.1)).after
    (l.disposeResult_work u unit why run)

theorem Lane.meterEdge_work (l : Lane) (u : MeterUnit) (unit : UnitId) (now : Stamp)
    (active : Bool) (e : EdgeStamp) (run : l.runs .meter) :
    WorkStep l (l.meterEdge u unit now active e).lane := by
  unfold Lane.meterEdge
  split
  · split <;> exact .refl l
  · split
    · unfold Lane.endItem
      dsimp only
      split
      · exact l.endMeasurement_work _ _ _ _ _ run
      · split <;> exact .refl l
    · split <;> exact .refl l
  · exact .refl l

theorem Lane.stopMeter_work (l : Lane) (u : MeterUnit) (mode : l.regs.lmode = .meter) :
    WorkStep l (l.stopMeter u).lane := by
  unfold Lane.stopMeter
  split
  · exact l.finishMeter_work _ mode
  · exact .refl l

theorem Lane.abortMeter_work (l : Lane) (u : MeterUnit) (unit : UnitId) (now : Stamp)
    (run : l.runs .meter) : WorkStep l (l.abortMeter u unit now).lane := by
  unfold Lane.abortMeter
  split
  · exact l.endMeasurement_work _ _ _ _ _ run
  · exact l.endMeasurement_work _ _ _ _ _ run
  · exact .refl l

theorem Lane.resultDone_work (l : Lane) (u : MeterUnit) (mode : l.regs.lmode = .meter) :
    WorkStep l (l.resultDone u).lane := by
  unfold Lane.resultDone
  split
  · exact .refl l
  · exact (Lane.finishMeter_work { l with result := none } _ mode).after
      (SameWork.step ⟨rfl, rfl, fun f hf => ⟨f, hf, rfl⟩, rfl, rfl, rfl, by simp, .rfl⟩ le_rfl)

/-! ## The replay engine -/

theorem Lane.idle_of_replay {l : Lane} (mode : l.regs.lmode = .replay) (current : l.rep.current = none)
    (finished : l.rep.finished = none) (w : workOk l) : l.idle :=
  have ⟨frame, records⟩ := Lane.no_frames (by simp [mode]) w
  ⟨frame, records, Lane.no_result (by simp [mode]) w, by simp [Lane.replays, current, finished]⟩

theorem Lane.mapCurrent_work (l : Lane) (f : ReplayRecord → ReplayRecord) :
    WorkStep l (l.mapCurrent f) :=
  .ofReplay (by simp [Lane.replays, Lane.mapCurrent]) le_rfl rfl

/-- A current record that ends is finished (R107). -/
theorem Lane.endRecord_work (l : Lane) (status : DescStatus) : WorkStep l (l.endRecord status) := by
  obtain ⟨_, h⟩ | ⟨c, hc, h⟩ := l.endRecord_cases status <;> rw [h]
  · exact .refl l
  · exact .ofReplay (by simp [Lane.replays, hc]) (by simp) rfl

/-- The current record is left as `c` and the engine in `st`. -/
theorem Lane.setCurrent_work (l : Lane) (st : RState) (c : ReplayRecord)
    (held : l.rep.current.isSome = true) :
    WorkStep l { l with rep := { l.rep with rstate := st, current := some c } } :=
  .ofReplay (by simp [Lane.replays, held]) le_rfl rfl

theorem Lane.enterPlay_work (l : Lane) : WorkStep l l.enterPlay :=
  WorkStep.after (m := l.mapCurrent fun c => { c with played := 0, playing := none, tickSeen := false })
    (.ofReplay .rfl le_rfl rfl) (l.mapCurrent_work _)

theorem Lane.finishReplay_work (l : Lane) : WorkStep l l.finishReplay.lane := by
  obtain ⟨_, mode, current, finished, _, h⟩ | h := l.finishReplay_cases <;> rw [h]
  · exact (Lane.becomeStopped_work { l with rep := { l.rep with rstate := .inactive } }
      (Lane.idle_of_replay mode current finished)).after (.ofReplay .rfl le_rfl rfl)
  · exact .refl l

/-- A descriptor is taken by a lane that replays (R93, R94). -/
theorem Lane.takeRecord_work (l : Lane) (d : Desc) (run : l.runs .replay) :
    WorkStep l (l.takeRecord d) := by
  have taken (rep : ReplayEngine) (fifo : List FifoEntry)
      (held : rep.current.isSome = true ∨ rep.finished.isSome = true) (short : fifo.length ≤ l.fifo.length) :
      WorkStep l { l with fifo := fifo, rep := rep } :=
    ⟨⟨fun ⟨cap, result, _⟩ => ⟨cap, result, fun _ => run⟩, fun _ => id,
      fun _ ⟨all, kept⟩ => ⟨short.trans all, fun f hf hk => (Nat.succ_le_succ short).trans (kept f hf hk)⟩⟩,
      fun _ _ ⟨_, _, room⟩ => ⟨run, held, (Nat.add_le_add_right short _).trans room⟩⟩
  obtain ⟨_, h⟩ | ⟨_, h⟩ := l.takeRecord_cases d <;> rw [h]
  · exact taken _ l.fifo (.inl rfl) le_rfl
  · exact taken _ [] (.inr rfl) (Nat.zero_le _)

theorem Lane.takeSpare_work (l : Lane) : WorkStep l l.takeSpare := by
  obtain ⟨d, _, mode, life, _, _, h⟩ | h := l.takeSpare_cases <;> rw [h]
  · exact (Lane.requestFetch_work _).after
      ((Lane.takeRecord_work { l with ring := { l.ring with slot := .empty } } d
        ⟨mode, by simp [life, Life.active]⟩).after (.ofRing l _))
  · exact .refl l

theorem Lane.seekSpare_work (l : Lane) : WorkStep l l.seekSpare.lane := by
  unfold Lane.seekSpare
  dsimp only
  split
  · exact (Lane.reportDry_work _).after l.takeSpare_work
  · exact l.takeSpare_work

theorem Lane.checkHeader_work (l : Lane) (table : Eight Profile) (c : ReplayRecord)
    (held : l.rep.current.isSome = true) : WorkStep l (l.checkHeader table c) := by
  unfold Lane.checkHeader
  dsimp only
  split
  · split
    · exact l.endRecord_work _
    · split
      · split
        · exact l.setCurrent_work _ _ held
        · split
          · exact (Lane.enterPlay_work _).after (l.setCurrent_work _ _ held)
          · exact l.setCurrent_work _ _ held
      · exact l.endRecord_work _
  · exact .refl l

theorem Lane.loadDone_work (l : Lane) (table : Eight Profile) : WorkStep l (l.loadDone table) := by
  unfold Lane.loadDone
  split
  · next c _ hc =>
    have held : l.rep.current.isSome = true := by simp [hc]
    split
    · exact l.checkHeader_work _ _ held
    · exact (Lane.enterPlay_work _).after (l.setCurrent_work _ _ held)
  · exact .refl l

theorem Lane.beginInterval_work (l : Lane) (table : Eight Profile) (c : ReplayRecord)
    (held : l.rep.current.isSome = true) : WorkStep l (l.beginInterval table c) := by
  have popped (c : ReplayRecord) (v : FifoEntry) (rest : List FifoEntry) (hf : l.fifo = v :: rest) :
      WorkStep l { l with fifo := rest, rep := { l.rep with current := some c } } :=
    .ofReplay (by simp [Lane.replays, held]) (by simp [hf]) rfl
  unfold Lane.beginInterval
  dsimp only
  split
  · split
    · exact l.setCurrent_work _ _ held
    · exact .refl l
  · split
    · next v rest hf =>
      split
      · exact (Lane.endRecord_work _ _).after (popped c _ _ hf)
      · exact popped _ _ _ hf
    · exact (Lane.endRecord_work _ _).after (l.setCurrent_work _ c held)

theorem Lane.firstInterval_work (l : Lane) (table : Eight Profile) (c : ReplayRecord)
    (held : l.rep.current.isSome = true) : WorkStep l (l.firstInterval table c) := by
  unfold Lane.firstInterval
  split
  · exact l.endRecord_work _
  · exact l.beginInterval_work _ _ held

theorem Lane.endPlaying_work (l : Lane) (table : Eight Profile) (c : ReplayRecord)
    (held : l.rep.current.isSome = true) : WorkStep l (l.endPlaying table c) := by
  unfold Lane.endPlaying
  split
  · exact l.endRecord_work _
  · split
    · exact l.setCurrent_work _ _ held
    · exact l.beginInterval_work _ _ held

theorem Lane.endTrail_work (l : Lane) (table : Eight Profile) (c : ReplayRecord)
    (held : l.rep.current.isSome = true) : WorkStep l (l.endTrail table c) := by
  unfold Lane.endTrail
  dsimp only
  split
  · exact (Lane.endRecord_work _ _).after (l.setCurrent_work _ _ held)
  · split
    · exact (Lane.endRecord_work _ _).after (l.setCurrent_work _ _ held)
    · split
      · exact (Lane.beginInterval_work _ _ _ rfl).after (l.setCurrent_work .rPlay _ held)
      · exact l.setCurrent_work _ _ held

theorem Lane.stopReplay_work (l : Lane) : WorkStep l l.stopReplay.lane := by
  unfold Lane.stopReplay
  split
  · exact l.endRecord_work _
  · exact l.endRecord_work _
  · exact l.mapCurrent_work _
  · exact l.mapCurrent_work _
  · exact l.finishReplay_work

theorem Lane.abortReplay_work (l : Lane) : WorkStep l l.abortReplay.lane := by
  unfold Lane.abortReplay
  split
  · exact l.endRecord_work _
  · exact l.finishReplay_work

theorem Lane.profileChanged_work (l : Lane) (ix : ProfileIx) : WorkStep l (l.profileChanged ix) := by
  unfold Lane.profileChanged
  split
  · next hc =>
    split
    · split
      · exact l.setCurrent_work _ _ (by simp [hc])
      · exact l.endRecord_work _
    · exact .refl l
  · exact .refl l

theorem Lane.killMatcher_work (l : Lane) (ix : ProfileIx) : WorkStep l (l.killMatcher ix) := by
  rw [Laws.killMatcher_eq]
  exact .same rfl rfl rfl rfl rfl rfl rfl .rfl le_rfl

/-- A lane whose finished record has been handed back may hold none (R108); no burst of it is in progress
then. -/
theorem Lane.replayDone_safe (l : Lane) : LaneSafe l l.replayDone.lane := by
  unfold Lane.replayDone
  split
  · exact (WorkStep.refl l).toLaneSafe
  · next f hf =>
    refine (Lane.seekSpare_work _).toLaneSafe.after ((Lane.finishReplay_work _).toLaneSafe.after
      ⟨fun ⟨cap, result, rep⟩ => ⟨cap, result, fun h => rep (h.imp_right (by simp))⟩, fun _ => id, fun _ => id⟩)

/-- A FILL word takes the place in the FIFO its burst had reserved (R96). -/
theorem Lane.fillWord_fills (l : Lane) (data : Word) (room : Nat) (h : l.fills (room + 1)) :
    (l.fillWord data).fills room := by
  obtain ⟨run, rep, free⟩ := h
  unfold Lane.fillWord
  dsimp only
  split
  · exact ⟨run, rep, by omega⟩
  · have longer : (l.fifo ++ [FifoEntry.interval data]).length + room ≤ Config.fifoDepth := by
      rw [List.length_append, List.length_singleton]; omega
    split <;> exact ⟨run, .inl rfl, longer⟩

/-- A FILL word brings no other work than the lane holds. -/
theorem Lane.fillWord_same (l : Lane) (data : Word) : SameWork l (l.fillWord data) := by
  unfold Lane.fillWord
  dsimp only
  split
  · exact .refl l
  · next hc =>
    split <;> exact ⟨rfl, rfl, fun f hf => ⟨f, hf, rfl⟩, rfl, rfl, rfl, id, by
      simp [Lane.replays, Lane.enterPlay, Lane.mapCurrent, hc]⟩

/-- A FILL word never meets a full FIFO where its burst has reserved its place: the lane is at work in REPLAY
and has no frame (R96). -/
theorem Lane.fillWord_fifoOk (l : Lane) (data : Word) (w : workOk l) (h : l.fills 1) :
    fifoOk (l.fillWord data) := by
  refine (fifoOk_iff _).mpr ⟨(l.fillWord_fills data 0 h).2.2, fun keeping => ?_⟩
  obtain ⟨f, hf, _⟩ := (l.fillWord_same data).keeping keeping
  have noFrame := (Lane.no_frames (by simp [h.1.1]) w).1
  simp [noFrame] at hf

/-- A word of any purpose but FILL (R154). -/
theorem Lane.takeWord_work (l : Lane) (p : Purpose) (data : Word) (h : p ≠ .fill) :
    WorkStep l (l.takeWord p data) := by
  cases p with
  | fetch => exact l.fetchWord_work data
  | drain => exact l.drainWord_work
  | fill => exact absurd rfl h
  | load => exact l.mapCurrent_work _
  | decode | header | writeback => exact .refl l

/-! ## Faults, resets and lane commands -/

theorem Lane.fault_safe (l : Lane) (cause : FaultCause) : LaneSafe l (l.fault cause) :=
  .ofIdle (fun _ => ⟨rfl, rfl, rfl, by simp [Lane.replays, Lane.fault, ReplayEngine.reset]⟩) (Nat.zero_le _)

theorem Lane.afterReset_safe (l : Lane) (line : Level) (stamp : Stamp) (r : LResult) :
    LaneSafe l (.afterReset line stamp r) :=
  .ofIdle (fun _ => ⟨rfl, rfl, rfl, by simp [Lane.replays, Lane.afterReset, ReplayEngine.reset]⟩)
    (Nat.zero_le _)

theorem Lane.skip_work (l : Lane) (arg : BitVec 12) : WorkStep l (l.skip arg) := by
  unfold Lane.skip
  split <;> exact .same rfl rfl rfl rfl rfl rfl rfl .rfl le_rfl

theorem Lane.recover_work (l : Lane) : WorkStep l l.recover := by
  unfold Lane.recover
  split
  · next hl => exact .ofInactive (by simp [hl, Life.active]) rfl rfl rfl rfl
  · exact .same rfl rfl rfl rfl rfl rfl rfl .rfl le_rfl

theorem Lane.flush_work (l : Lane) : WorkStep l l.flush.lane := by
  unfold Lane.flush
  split
  · exact .same rfl rfl rfl rfl rfl rfl rfl .rfl le_rfl
  · next stopped =>
    have stopped : l.life = .stopped := not_not.mp stopped
    split
    · exact (Lane.checkFlush_work _).after ((Lane.requestFetch_work _).after
        (.ofInactive (by simp [stopped, Life.active]) rfl rfl rfl rfl))
    · exact .same rfl rfl rfl rfl rfl rfl rfl .rfl le_rfl

theorem Lane.abortFlush_work (l : Lane) (flushing : l.life.isFlushing = true) :
    WorkStep l l.abortFlush.lane := by
  have inactive := Life.inactive_of_flushing flushing
  unfold Lane.abortFlush
  split
  · exact .ofInactive inactive rfl rfl rfl rfl
  · exact l.becomeStopped_work (l.idle_of_inactive inactive)

theorem Lane.seeTransition_work (l : Lane) (table : Eight Profile) (now : Stamp) :
    WorkStep l (l.seeTransition table now).lane := by
  unfold Lane.seeTransition
  dsimp only
  split
  · split
    · exact .same rfl rfl rfl rfl rfl rfl rfl .rfl le_rfl
    · split
      · exact (Lane.captureGlitch_work _ _).after (.same rfl rfl rfl rfl rfl rfl rfl .rfl le_rfl)
      · exact .same rfl rfl rfl rfl rfl rfl rfl .rfl le_rfl
  · exact .same rfl rfl rfl rfl rfl rfl rfl .rfl le_rfl

end Sys2Proof.Machine
end

section
/-! SUPPORT. What every command keeps of the work the lanes hold, and the obligations that rest on it: the
numbered records (O58) and the bounded FIFOs (O59). -/

namespace Sys2Proof.Laws

open Sys2Proof.Machine Sys2Proof.Safety

/-! ## The state -/

/-- What a command keeps of the work of every lane, and of the room a FILL burst has reserved. -/
structure WorkMove (s t : State) : Prop where
  work : everyLane workOk s → everyLane workOk t
  records : everyLane workOk s → everyLane recordsOk s → everyLane recordsOk t
  fifo : everyLane workOk s → fillRoomOk s → everyLane fifoOk s → everyLane fifoOk t
  fill : everyLane workOk s → fillRoomOk s → fillRoomOk t

theorem WorkMove.after {s t u : State} (g : WorkMove t u) (h : WorkMove s t) : WorkMove s u :=
  ⟨g.work ∘ h.work, fun w => g.records (h.work w) ∘ h.records w,
    fun w r => g.fifo (h.work w) (h.fill w r) ∘ h.fifo w r, fun w => g.fill (h.work w) ∘ h.fill w⟩

/-- A burst of a lane that has not been reset was in progress before, with no fewer words to come. -/
abbrev burstGoesOn (s t : State) : Prop := ∀ b, t.bus.burst = some b → b.orphan = false →
  ∃ c, s.bus.burst = some c ∧ c.orphan = false ∧ c.lane = b.lane ∧ c.purpose = b.purpose
    ∧ (1 ≤ c.remaining → 1 ≤ b.remaining ∧ b.remaining ≤ c.remaining)

/-- A FILL burst's room is what its lane can fill. -/
theorem fillRoomOk_iff (s : State) : fillRoomOk s ↔ ∀ b, s.bus.burst = some b → b.purpose = .fill →
    b.orphan = false → 1 ≤ b.remaining ∧ (s.lane b.lane).fills b.remaining := by
  simp only [fillRoomOk, Lane.fills, Option.mem_def]
  refine forall_congr' fun b => imp_congr_right fun _ => imp_congr_right fun _ => imp_congr_right fun _ => ?_
  tauto

theorem WorkMove.ofSafe {s t : State} (lanes : ∀ m, LaneSafe (s.lane m) (t.lane m))
    (fill : everyLane workOk s → fillRoomOk s → fillRoomOk t) : WorkMove s t :=
  ⟨fun w m => (lanes m).work (w m), fun w h m => (lanes m).records (w m) (h m),
    fun w _ h m => (lanes m).fifo (w m) (h m), fill⟩

/-- A step after which no burst is in progress. -/
theorem WorkMove.ofReleased {s t : State} (free : t.bus.burst = none)
    (lanes : ∀ m, LaneSafe (s.lane m) (t.lane m)) : WorkMove s t :=
  .ofSafe lanes fun _ _ b hb => by simp [free] at hb

/-- A step under which the burst in progress goes on with its lane. -/
theorem WorkMove.ofServing {s t : State} (burst : burstGoesOn s t)
    (lanes : ∀ m, LaneSafe (s.lane m) (t.lane m))
    (serving : ∀ b, t.bus.burst = some b → b.orphan = false → WorkStep (s.lane b.lane) (t.lane b.lane)) :
    WorkMove s t := by
  refine .ofSafe lanes fun w h => (fillRoomOk_iff t).mpr fun b hb hp ho => ?_
  obtain ⟨c, hc, horphan, hlane, hpurpose, hwords⟩ := burst b hb ho
  obtain ⟨some, run, rep, room⟩ := (fillRoomOk_iff s).mp h c hc (hpurpose.trans hp) horphan
  obtain ⟨first, fewer⟩ := hwords some
  refine ⟨first, (serving b hb ho).fill (w _) _ ?_⟩
  rw [← hlane]
  exact ⟨run, rep, by omega⟩

theorem WorkMove.ofLanes {s t : State} (burst : burstGoesOn s t)
    (lanes : ∀ m, WorkStep (s.lane m) (t.lane m)) : WorkMove s t :=
  .ofServing burst (fun m => (lanes m).toLaneSafe) fun _ _ _ => lanes _

theorem burstGoesOn_of_eq {s t : State} (h : t.bus.burst = s.bus.burst) : burstGoesOn s t :=
  fun b hb ho => ⟨b, h ▸ hb, ho, rfl, rfl, fun k => ⟨k, le_rfl⟩⟩

theorem work_of_eq {s t : State} (burst : t.bus.burst = s.bus.burst) (lanes : t.lanes = s.lanes) :
    WorkMove s t :=
  .ofLanes (burstGoesOn_of_eq burst) fun m => by
    rw [State.lane, State.lane, lanes]
    exact .refl _

theorem WorkMove.refl (s : State) : WorkMove s s := work_of_eq rfl rfl

/-- A change of lane `n`, the burst in progress left as it is. -/
theorem work_of_set {s t : State} {n : LaneId} {l : Lane} (burst : t.bus.burst = s.bus.burst)
    (lanes : t.lanes = s.lanes.set n l) (h : WorkStep (s.lane n) l) : WorkMove s t :=
  .ofLanes (burstGoesOn_of_eq burst) fun m => by
    rw [State.lane, State.lane, lanes, Eight.get_set]
    split
    · next hm => exact hm ▸ h
    · exact .refl _

/-- A change of lane `n` with no burst in progress. -/
theorem work_of_set_released {s t : State} {n : LaneId} {l : Lane} (free : t.bus.burst = none)
    (lanes : t.lanes = s.lanes.set n l) (h : LaneSafe (s.lane n) l) : WorkMove s t :=
  .ofReleased free fun m => by
    rw [State.lane, State.lane, lanes, Eight.get_set]
    split
    · next hm => exact hm ▸ h
    · exact (WorkStep.refl _).toLaneSafe

theorem setLane_work (s : State) (n : LaneId) {l : Lane} (h : WorkStep (s.lane n) l) :
    WorkMove s (s.setLane n l) := work_of_set rfl rfl h

theorem putLane_work (s : State) (n : LaneId) {o : LaneOut} (h : WorkStep (s.lane n) o.lane) :
    WorkMove s (s.putLane n o) := work_of_set (by simp) (State.postAll_lanes _ _ _) h

theorem putMeter_work (s : State) (n : LaneId) (u : UnitId) {o : MeterOut}
    (h : WorkStep (s.lane n) o.lane) : WorkMove s (s.putMeter n u o) :=
  work_of_set (by simp) (State.postAll_lanes _ _ _) h

theorem raiseRequest_work {s t : State} (h : WorkMove s t) : WorkMove s t.raiseRequest :=
  (work_of_eq t.raiseRequest_burst t.raiseRequest_lanes).after h

theorem hostWrite_work (s : State) {f : State → State} (h : WorkMove s (f s)) :
    WorkMove s (s.hostWrite f) := by
  obtain ⟨_, k⟩ | ⟨_, k⟩ := s.hostWrite_cases f <;> rw [k]
  · exact .refl s
  · exact h

/-! ## The front end -/

theorem acceptEdge_work (s : State) (n : LaneId) (c : Change) : WorkMove s (s.acceptEdge n c) := by
  have accepted : WorkStep (s.lane n) ((s.lane n).acceptChange c) :=
    .same rfl rfl rfl rfl rfl rfl rfl .rfl le_rfl
  unfold State.acceptEdge
  dsimp only
  split
  · next active =>
    split
    · next mode => exact putLane_work _ _ ((Lane.captureEdge_work _ _ _ _ _ ⟨mode, active⟩).after accepted)
    · next mode =>
      split
      · exact putMeter_work _ _ _ ((Lane.meterEdge_work _ _ _ _ _ _ ⟨mode, active⟩).after accepted)
      · exact setLane_work _ _ accepted
    · exact setLane_work _ _ accepted
  · exact setLane_work _ _ accepted

/-! ## Lane commands -/

theorem stopEngine_work (s : State) (n : LaneId) {l : Lane} (h : WorkStep (s.lane n) l) :
    WorkMove s (s.stopEngine n l) := by
  unfold State.stopEngine
  split
  · exact putLane_work _ _ (l.finishCapture_work.after h)
  · next mode =>
    split
    · exact putMeter_work _ _ _ ((l.stopMeter_work _ mode).after h)
    · exact setLane_work _ _ h
  · exact putLane_work _ _ (l.stopReplay_work.after h)
  · exact setLane_work _ _ h

theorem abortEngine_work (s : State) (n : LaneId) {l : Lane} (active : l.life.active = true)
    (h : WorkStep (s.lane n) l) : WorkMove s (s.abortEngine n l) := by
  unfold State.abortEngine
  split
  · exact putLane_work _ _ ((l.abortCapture_work _).after h)
  · next mode =>
    split
    · exact putMeter_work _ _ _ ((l.abortMeter_work _ _ _ ⟨mode, active⟩).after h)
    · exact setLane_work _ _ h
  · exact putLane_work _ _ (l.abortReplay_work.after h)
  · exact setLane_work _ _ h

/-- An engine begins on a lane that was STOPPED, and so held no work (R117, R120). -/
theorem beginEngine_work (s : State) (n : LaneId) {l : Lane} (stopped : (s.lane n).life = .stopped)
    (result : l.result = (s.lane n).result) (rep : l.rep = (s.lane n).rep)
    (cap : l.cap = (s.lane n).cap) (fifo : l.fifo = (s.lane n).fifo) :
    WorkMove s (s.beginEngine n l) := by
  have inactive : (s.lane n).life.active = false := by rw [stopped]; rfl
  have begun (c : Assembler) (e : ReplayEngine) (hc : c.frame = l.cap.frame ∨ c.frame = none)
      (hr : c.records = l.cap.records ∨ c.records = [])
      (he : e = l.rep ∨ (e.current = none ∧ e.finished = none)) :
      WorkStep (s.lane n) { l with cap := c, rep := e } := by
    refine .ofIdle (Lane.idle_of_inactive inactive) (fun k => ⟨?_, ?_, result.trans k.result, ?_⟩)
      (by simp [fifo])
    · exact hc.elim (fun h => by rw [h, cap]; exact k.frame) id
    · exact hr.elim (fun h => by rw [h, cap]; exact k.records) id
    · obtain rfl | ⟨hcur, hfin⟩ := he
      · rw [rep]; exact k.replay
      · simp [Lane.replays, hcur, hfin]
  unfold State.beginEngine
  split
  · refine setLane_work _ _ ((Lane.requestFetch_work _).after ?_)
    have armed := begun { Assembler.reset with cstate := .arming } l.rep (.inr rfl) (.inr rfl) (.inl rfl)
    unfold Lane.startCapture
    dsimp only
    split
    · exact (Lane.reachWaitPoint_work _).after armed
    · exact armed
  · split
    · exact work_of_set rfl rfl ((Lane.requestFetch_work _).after
        (begun l.cap l.rep (.inl rfl) (.inl rfl) (.inl rfl)))
    · exact .refl s
  · exact putLane_work _ _ ((Lane.requestFetch_work _).after ((Lane.seekSpare_work _).after
      (begun l.cap ⟨.rWait, none, none⟩ (.inl rfl) (.inl rfl) (.inr ⟨rfl, rfl⟩))))
  · exact .refl s

theorem startLane_work (s : State) (n : LaneId) : WorkMove s (s.startLane n) := by
  unfold State.startLane
  dsimp only
  split
  · next accepted =>
    exact raiseRequest_work (beginEngine_work s n (startVerdict_stopped s n accepted) rfl rfl rfl rfl)
  · exact setLane_work _ _ (.same rfl rfl rfl rfl rfl rfl rfl .rfl le_rfl)

/-- A lane at work that is told to end is still at work (R118, R119). -/
theorem ending_work {l : Lane} (e : Ending) (active : l.life.active = true) :
    WorkStep l { l.accept with life := .stopping e } :=
  .same rfl active.symm rfl rfl rfl rfl rfl .rfl le_rfl

theorem stopLane_work (s : State) (n : LaneId) : WorkMove s (s.stopLane n) := by
  have answered (r : LResult) (w : Bool) :
      WorkStep (s.lane n) { s.lane n with lresult := r, writeIgnored := w } :=
    .same rfl rfl rfl rfl rfl rfl rfl .rfl le_rfl
  unfold State.stopLane
  dsimp only
  split
  · next h => exact raiseRequest_work (stopEngine_work _ _ (ending_work _ (by rw [h]; rfl)))
  · exact setLane_work _ _ (answered _ _)
  · exact putLane_work _ _ (answered _ _)
  · exact setLane_work _ _ (answered _ _)
  · exact setLane_work _ _ (answered _ _)

theorem abortLane_work (s : State) (n : LaneId) : WorkMove s (s.abortLane n) := by
  have answered (r : LResult) (w : Bool) :
      WorkStep (s.lane n) { s.lane n with lresult := r, writeIgnored := w } :=
    .same rfl rfl rfl rfl rfl rfl rfl .rfl le_rfl
  unfold State.abortLane
  dsimp only
  split
  · next h => exact raiseRequest_work (abortEngine_work _ _ rfl (ending_work _ (by rw [h]; rfl)))
  · next h => exact raiseRequest_work (abortEngine_work _ _ rfl (ending_work _ (by rw [h]; rfl)))
  · exact setLane_work _ _ (answered _ _)
  · exact setLane_work _ _ (answered _ _)
  · next h =>
    exact raiseRequest_work (putLane_work _ _
      ((Lane.abortFlush_work _ (by simp [Lane.accept, h, Life.isFlushing])).after (answered _ _)))
  · exact setLane_work _ _ (answered _ _)

/-- A burst of the reset lane is an orphan from then on, and any other goes on (R129, R159). -/
theorem resetLane_work (s : State) (n : LaneId) (r : LResult) : WorkMove s (s.resetLane n r) := by
  have reset : (s.resetLane n r).lanes
      = s.lanes.set n (.afterReset (s.lane n).line s.time.count r) := rfl
  have other (b : Burst) (hb : (s.resetLane n r).bus.burst = some b) (ho : b.orphan = false) :
      b.lane ≠ n ∧ s.bus.burst = some b := by
    rw [burst_eq_some] at hb ⊢
    change (s.bus.orphan n).bstate = .owned b at hb
    unfold BusMaster.orphan at hb
    split at hb
    · next c hc =>
      split at hb
      · cases hb; cases ho
      · next hn =>
        have same := hc.symm.trans hb
        cases same
        exact ⟨hn, hb⟩
    · next hc => exact absurd hb (hc b)
  refine .ofServing (fun b hb ho => ⟨b, (other b hb ho).2, ho, rfl, rfl, fun k => ⟨k, le_rfl⟩⟩)
    (fun m => ?_) (fun b hb ho => ?_)
  · rw [State.lane, State.lane, reset, Eight.get_set]
    split
    · exact Lane.afterReset_safe _ _ _ _
    · exact (WorkStep.refl _).toLaneSafe
  · rw [State.lane, State.lane, reset, Eight.get_set_ne _ _ (other b hb ho).1]
    exact .refl _

theorem laneCommand_work (s : State) (n : LaneId) (code : BitVec 4) (arg : BitVec 12) :
    WorkMove s (s.laneCommand n code arg) := by
  unfold State.laneCommand
  split
  · exact startLane_work _ _
  · split
    · exact stopLane_work _ _
    · split
      · exact abortLane_work _ _
      · split
        · exact setLane_work _ _ (Lane.skip_work _ _)
        · split
          · exact raiseRequest_work (putLane_work _ _ (Lane.flush_work _))
          · split
            · exact setLane_work _ _ (Lane.recover_work _)
            · split
              · exact resetLane_work _ _ _
              · exact setLane_work _ _ (.same rfl rfl rfl rfl rfl rfl rfl .rfl le_rfl)

/-! ## Registers of a lane's block -/

/-- The configuration is written on a STOPPED lane alone, which holds no work (R125). -/
theorem lockedWrite_work (s : State) (n : LaneId) (f : Lane → Lane) (cap : ∀ l, (f l).cap = l.cap)
    (result : ∀ l, (f l).result = l.result) (rep : ∀ l, (f l).rep = l.rep)
    (fifo : ∀ l, (f l).fifo = l.fifo) : WorkMove s (s.lockedWrite n f) := by
  unfold State.lockedWrite
  dsimp only
  split
  · next stopped =>
    exact setLane_work _ _ (.ofInactive (by rw [stopped]; rfl) (cap _) (result _) (rep _) (fifo _))
  · exact setLane_work _ _ (.same rfl rfl rfl rfl rfl rfl rfl .rfl le_rfl)

theorem ringWrite_work (s : State) (n : LaneId) (f : Ring → Ring) : WorkMove s (s.ringWrite n f) := by
  unfold State.ringWrite
  dsimp only
  split
  · exact setLane_work _ _ (.ofRing _ _)
  · exact setLane_work _ _ (.same rfl rfl rfl rfl rfl rfl rfl .rfl le_rfl)

theorem writePostedReg_work (s : State) (n : LaneId) (w : Word) : WorkMove s (s.writePostedReg n w) :=
  raiseRequest_work (putLane_work _ _ (Lane.writePosted_work _ _))

theorem writeLaneReg_work (s : State) (n : LaneId) (r : Nat) (w : Word) :
    WorkMove s (s.writeLaneReg n r w) := by
  unfold State.writeLaneReg
  split
  all_goals first
    | exact lockedWrite_work _ _ _ (fun _ => rfl) (fun _ => rfl) (fun _ => rfl) fun _ => rfl
    | exact ringWrite_work _ _ _
    | exact writePostedReg_work _ _ _
    | exact laneCommand_work _ _ _ _
    | exact .refl s

/-! ## The bus and the resets -/

theorem captureRequest_purpose {l : Lane} {q : Request} (h : l.captureRequest = some q) :
    q.purpose ≠ .fill := by
  unfold Lane.captureRequest at h
  split at h
  · cases h
  · split at h
    · split at h <;> cases h
      simp
    all_goals cases h; simp

theorem meterRequest_purpose {l : Lane} {q : Request} (h : l.meterRequest = some q) :
    q.purpose ≠ .fill := by
  unfold Lane.meterRequest at h
  split at h
  · cases h
  · split at h <;> cases h <;> simp

theorem loadRequest_purpose {l : Lane} {q : Request} (h : l.loadRequest = some q) :
    q.purpose ≠ .fill := by
  unfold Lane.loadRequest at h
  split at h
  · split at h <;> cases h <;> simp
  · cases h

theorem finishedRequest_purpose {l : Lane} {q : Request} (h : l.finishedRequest = some q) :
    q.purpose ≠ .fill := by
  unfold Lane.finishedRequest at h
  split at h <;> cases h
  simp

theorem returnRequest_purpose {l : Lane} {q : Request} (h : l.returnRequest = some q) :
    q.purpose ≠ .fill := by
  unfold Lane.returnRequest at h
  split at h <;> cases h
  simp

theorem fetchRequest_purpose {l : Lane} {q : Request} (h : l.fetchRequest = some q) :
    q.purpose ≠ .fill := by
  unfold Lane.fetchRequest at h
  split at h <;> cases h
  simp

/-- A FILL is presented by the replay engine alone (R148). -/
theorem fillRequest_of_request {l : Lane} {q : Request} (h : l.request = some q) (hp : q.purpose = .fill) :
    l.fillRequest = some q := by
  have engine (h : l.engineRequest = some q) : l.fillRequest = some q := by
    unfold Lane.engineRequest at h
    split at h
    · cases h
    · exact absurd hp (captureRequest_purpose h)
    · exact absurd hp (meterRequest_purpose h)
    · simp only [Option.or_eq_some_iff] at h
      obtain (h | ⟨_, h⟩) | ⟨_, h⟩ := h
      · exact h
      · exact absurd hp (loadRequest_purpose h)
      · exact absurd hp (finishedRequest_purpose h)
  have returns (h : l.returnRequest.or l.fetchRequest = some q) : l.fillRequest = some q := by
    obtain h | ⟨_, h⟩ := Option.or_eq_some_iff.mp h
    · exact absurd hp (returnRequest_purpose h)
    · exact absurd hp (fetchRequest_purpose h)
  unfold Lane.request at h
  split at h
  · rw [Option.or_assoc] at h
    exact (Option.or_eq_some_iff.mp h).elim engine fun h => returns h.2
  · rw [Option.or_assoc] at h
    exact (Option.or_eq_some_iff.mp h).elim engine fun h => returns h.2
  · exact returns h
  · exact absurd hp (returnRequest_purpose h)
  · cases h

/-- A FILL that a lane presents has words to fetch and the room it asks for (R96). -/
theorem request_fills {l : Lane} {q : Request} (h : l.request = some q) (hp : q.purpose = .fill)
    (w : workOk l) : 1 ≤ q.words ∧ l.fills q.words := by
  have asked := fillRequest_of_request h hp
  unfold Lane.fillRequest at asked
  split at asked
  · cases asked
  · next c hc =>
    split at asked <;> cases asked
    next ready =>
    obtain ⟨_, _, more, _, room⟩ := ready
    have held : l.replays := .inl (by simp [hc])
    exact ⟨by simp only [ReplayRecord.fillWords, Config.burstWords]; omega, w.2.2 held, held, room⟩

theorem beginBurst_work (s : State) (n : LaneId) (q : Request) (h : s.request n = some q) :
    WorkMove s (s.beginBurst n q) := by
  have asked : (s.lane n).request = some q := by
    unfold State.request at h
    split at h
    · cases h
    · exact h
  have granted (m : LaneId) : WorkStep (s.lane m) ((s.beginBurst n q).lane m) := by
    by_cases hm : m = n
    · subst hm
      rw [beginBurst_lane_self]
      split
      · exact .ofRing _ _
      · exact .refl _
    · rw [beginBurst_others s n q m hm]
      exact .refl _
  refine .ofSafe (fun m => (granted m).toLaneSafe) fun w _ => (fillRoomOk_iff _).mpr fun b hb hp _ => ?_
  rw [burst_eq_some, beginBurst_eq] at hb
  cases hb
  obtain ⟨words, fills⟩ := request_fills asked hp (w n)
  exact ⟨words, (granted n).fill (w n) _ fills⟩

theorem releaseBus_burst (s : State) : s.releaseBus.bus.burst = none := rfl

theorem releaseBus_work (s : State) : WorkMove s s.releaseBus :=
  .ofReleased rfl fun _ => (WorkStep.refl _).toLaneSafe

theorem grant_work (s : State) : WorkMove s s.grant := by
  obtain ⟨_, h⟩ | ⟨_, _, h⟩ | ⟨n, _, _, _, h⟩ | ⟨n, q, _, _, hq, h⟩ := grant_cases s <;> rw [h]
  · exact .refl s
  · exact releaseBus_work s
  · exact releaseBus_work s
  · exact beginBurst_work s n q hq

theorem faultLane_work (s : State) (n : LaneId) (c : FaultCause) (free : s.bus.burst = none) :
    WorkMove s (s.faultLane n c) :=
  work_of_set_released free rfl (Lane.fault_safe _ c)

theorem fetchDone_work (s : State) (n : LaneId) (free : s.bus.burst = none) :
    WorkMove s (s.fetchDone n) := by
  unfold State.fetchDone
  dsimp only
  split
  · exact .refl s
  · split
    · exact setLane_work _ _ ((Lane.takeSpare_work _).after (Lane.takeFetched_work _ _))
    · exact faultLane_work _ _ _ free

theorem writeBackDone_work (s : State) (n : LaneId) (forRing : Bool) (free : s.bus.burst = none) :
    WorkMove s (s.writeBackDone n forRing) := by
  unfold State.writeBackDone
  dsimp only
  split
  · exact putLane_work _ _ (Lane.returnDone_work _)
  · split
    · exact putLane_work _ _ (Lane.recordDone_work _)
    · next mode =>
      split
      · exact putMeter_work _ _ _ (Lane.resultDone_work _ _ mode)
      · exact .refl s
    · exact work_of_set_released (by simpa using free) (State.postAll_lanes _ _ _) (Lane.replayDone_safe _)
    · exact .refl s

theorem burstDone_work (s : State) (b : Burst) (free : s.bus.burst = none) :
    WorkMove s (s.burstDone b) := by
  unfold State.burstDone
  dsimp only
  split
  · exact fetchDone_work _ _ free
  · exact setLane_work _ _ (Lane.mapOldest_work _ _ fun _ => rfl)
  · exact setLane_work _ _ (Lane.headerDone_work _)
  · exact writeBackDone_work _ _ _ free
  · exact setLane_work _ _ (Lane.loadDone_work _ _)
  · exact .refl s
  · exact .refl s

/-- A reset leaves no work and no burst (R128, R160). -/
theorem reset_work {s t : State} (free : t.bus.burst = none) (line : LaneId → Lane → Level) (stamp : Stamp)
    (hl : t.lanes = s.lanes.mapIdx fun n l => .afterReset (line n l) stamp .none) : WorkMove s t :=
  .ofReleased free fun m => by
    rw [State.lane, State.lane, hl, Eight.get_mapIdx]
    exact Lane.afterReset_safe _ _ _ _

theorem completeSoftReset_work (s : State) : WorkMove s s.completeSoftReset :=
  reset_work rfl (fun _ l => l.line) s.time.count rfl

theorem deviceReset_work (s : State) : WorkMove s s.deviceReset :=
  reset_work rfl (fun _ l => l.line) 0 rfl

/-- A soft reset cuts the burst in progress down to its current cycle (R160). -/
theorem softReset_work (s : State) : WorkMove s s.softReset := by
  unfold State.softReset
  split
  · next c hc =>
    refine .ofLanes (fun b hb ho => ?_) fun _ => .refl _
    cases hb
    exact ⟨c, (burst_eq_some _ _).mpr hc, ho, rfl, rfl, fun k => ⟨le_rfl, k⟩⟩
  · exact completeSoftReset_work s

/-- The word acknowledged reaches its lane, and the burst ends or goes on with one word fewer (R154). -/
theorem wordTaken_work {s t : State} {b : Burst} (data : Word) (hb : s.bus.burst = some b)
    (live : b.orphan = false)
    (lanes : t.lanes = s.lanes.set b.lane ((s.lane b.lane).takeWord b.purpose data))
    (next : ∀ c, t.bus.burst = some c → c.lane = b.lane ∧ c.purpose = b.purpose
      ∧ 1 ≤ c.remaining ∧ c.remaining + 1 = b.remaining) : WorkMove s t := by
  have lane (m : LaneId) : t.lane m
      = if m = b.lane then (s.lane b.lane).takeWord b.purpose data else s.lane m := by
    rw [State.lane, lanes, Eight.get_set]
    rfl
  by_cases hp : b.purpose = .fill
  · have taken (m : LaneId) : SameWork (s.lane m) (t.lane m) := by
      rw [lane m, hp]
      split
      · next hm => exact hm ▸ Lane.fillWord_same _ _
      · exact .refl _
    have room (h : fillRoomOk s) := (fillRoomOk_iff s).mp h b hb hp live
    refine ⟨fun w m => (taken m).work (w m), fun _ h m => (taken m).numbered (h m), fun w r h m => ?_,
      fun w r => (fillRoomOk_iff t).mpr fun c hc _ _ => ?_⟩
    · obtain ⟨some, run, rep, free⟩ := room r
      rw [lane m, hp]
      split
      · exact Lane.fillWord_fifoOk _ data (w _) ⟨run, rep, by omega⟩
      · exact h m
    · obtain ⟨hlane, _, first, fewer⟩ := next c hc
      refine ⟨first, ?_⟩
      rw [lane, if_pos hlane, hp]
      exact Lane.fillWord_fills _ data _ (fewer ▸ (room r).2)
  · refine .ofSafe (fun m => ?_) fun _ _ => (fillRoomOk_iff t).mpr fun c hc hfill _ => ?_
    · rw [lane m]
      split
      · next hm => exact hm ▸ (Lane.takeWord_work _ _ _ hp).toLaneSafe
      · exact (WorkStep.refl _).toLaneSafe
    · obtain ⟨_, purpose, _⟩ := next c hc
      exact absurd (purpose.symm.trans hfill) hp

theorem acknowledge_work (s : State) (data : Word) : WorkMove s (s.acknowledge data) := by
  obtain ⟨_, h⟩ | ⟨b, hb, ⟨_, h⟩ | ⟨_, _, h⟩ | ⟨_, live, _, h⟩ | ⟨_, live, more, h⟩⟩ :=
    acknowledge_cases s data <;> rw [h]
  · exact .refl s
  · exact completeSoftReset_work s
  · exact raiseRequest_work (releaseBus_work s)
  · exact raiseRequest_work ((burstDone_work _ b rfl).after
      (wordTaken_work data ((burst_eq_some _ _).mpr hb) live rfl fun c hc => (nomatch hc)))
  · refine wordTaken_work data ((burst_eq_some _ _).mpr hb) live rfl fun c hc => ?_
    cases hc
    exact ⟨rfl, rfl, by dsimp only; omega, by dsimp only; omega⟩

theorem failCycle_work (s : State) (e : Bool) : WorkMove s (s.failCycle e) := by
  obtain ⟨_, h⟩ | ⟨b, _, ⟨_, h⟩ | ⟨_, s1, rfl, ⟨_, h⟩ | ⟨_, h⟩⟩⟩ := failCycle_cases s e <;> rw [h]
  · exact .refl s
  · exact completeSoftReset_work s
  · exact raiseRequest_work (.ofReleased rfl fun _ => (WorkStep.refl _).toLaneSafe)
  · exact raiseRequest_work ((faultLane_work _ _ _ rfl).after
      (.ofReleased rfl fun _ => (WorkStep.refl _).toLaneSafe))

/-! ## Device control and the profile table -/

theorem tableChanged_work (s : State) (ix : ProfileIx) (p : Profile) :
    WorkMove s (tableChanged s ix p) :=
  raiseRequest_work (.ofLanes (burstGoesOn_of_eq rfl) fun m => by
    rw [profileChanged_lane]
    exact (Lane.profileChanged_work _ _).after (Lane.killMatcher_work _ _))

theorem commitProfile_work (s : State) (ix : ProfileIx) : WorkMove s (s.commitProfile ix) := by
  obtain ⟨_, h⟩ | ⟨_, h⟩ := commitProfile_cases s ix <;> rw [h]
  · exact tableChanged_work s ix _
  · exact work_of_eq rfl rfl

theorem profileCommand_work (s : State) (code : BitVec 4) (ix : ProfileIx) :
    WorkMove s (s.profileCommand code ix) := by
  unfold State.profileCommand
  split
  · exact commitProfile_work _ _
  · split
    · exact tableChanged_work s ix .empty
    · split <;> exact work_of_eq rfl rfl

/-- Core clocks age the word cycle in progress (R155). -/
theorem aged_work (s : State) (clocks : Nat) : WorkMove s { s with bus := s.bus.clock clocks } := by
  refine .ofLanes (fun b hb ho => ?_) fun _ => .refl _
  cases hc : s.bus.burst with
  | none => rw [clock_of_none _ _ hc, hc] at hb; cases hb
  | some c =>
    rw [clock_of_burst _ _ _ hc] at hb
    cases hb
    exact ⟨c, rfl, ho, rfl, rfl, fun k => ⟨k, le_rfl⟩⟩

theorem tick_work (s : State) : WorkMove s s.tick :=
  .ofLanes (burstGoesOn_of_eq rfl) fun m => by
    rw [tick_lane]
    exact Lane.mapCurrent_work _ _

theorem coreClock_work (s : State) : WorkMove s s.coreClock := by
  obtain ⟨_, h⟩ | ⟨_, _, h⟩ | ⟨_, _, h⟩ := coreClock_cases s <;> rw [h]
  · exact aged_work s 1
  · exact WorkMove.after (t := { s with bus := s.bus.clock 1 }) (work_of_eq rfl rfl) (aged_work s 1)
  · exact (tick_work _).after (aged_work s 1)

theorem writeControl_work (s : State) (w : Word) : WorkMove s (s.writeControl w) := by
  unfold State.writeControl
  split
  · exact work_of_eq rfl rfl
  · split
    · exact work_of_eq rfl rfl
    · split <;> exact work_of_eq rfl rfl

theorem writePresc_work (s : State) (w : Word) : WorkMove s (s.writePresc w) := by
  unfold State.writePresc
  split <;> exact work_of_eq rfl rfl

theorem writeResplim_work (s : State) (w : Word) : WorkMove s (s.writeResplim w) := by
  unfold State.writeResplim
  split <;> exact work_of_eq rfl rfl

theorem writeIrqctl_work (s : State) (w : Word) : WorkMove s (s.writeIrqctl w) := by
  unfold State.writeIrqctl
  split <;> exact work_of_eq rfl rfl

theorem globalCommand_work (s : State) (code : BitVec 4) : WorkMove s (s.globalCommand code) := by
  unfold State.globalCommand
  split
  · exact work_of_eq rfl rfl
  · split
    · exact work_of_eq rfl rfl
    · split
      · exact softReset_work s
      · exact work_of_eq rfl rfl

theorem writeGlobalReg_work (s : State) (o : Nat) (w : Word) : WorkMove s (s.writeGlobalReg o w) := by
  unfold State.writeGlobalReg
  split
  all_goals first
    | exact writeControl_work _ _
    | exact writePresc_work _ _
    | exact writeResplim_work _ _
    | exact globalCommand_work _ _
    | exact writeIrqctl_work _ _
    | exact profileCommand_work _ _ _
    | exact work_of_eq rfl rfl

theorem writeWindow_work (s : State) (offset : BitVec 10) (w : Word) :
    WorkMove s (s.writeWindow offset w) := by
  unfold State.writeWindow
  dsimp only
  split
  · exact writeGlobalReg_work _ _ _
  · split
    · exact work_of_eq rfl rfl
    · split
      · exact writeLaneReg_work _ _ _ _
      · exact .refl s

/-! ## Every command -/

theorem opened_of_openFrame {l : Lane} {f : Frame} (h : l.openFrame = some f) : l.opened f := by
  obtain ⟨_, _, hf⟩ := (openFrame_eq_some l f).mp h
  exact Lane.opened_of_mem hf

theorem runs_of_timedOutUnit {s : State} {n : LaneId} {u : UnitId} (h : s.timedOutUnit n = some u) :
    (s.lane n).runs .meter := by
  unfold State.timedOutUnit at h
  dsimp only at h
  split at h
  · next run => exact run
  · cases h

/-- A report that is taken where it is due, and changes nothing elsewhere (log 1). -/
theorem work_of_due {due : Prop} [Decidable due] {s t u : State}
    (h : (if due then .next u else .next s : Host.Outcome State Fault Refusal) = .next t)
    (hu : WorkMove s u) : WorkMove s t := by
  split at h <;> cases h
  · exact hu
  · exact .refl s

/-- Every command keeps the work of every lane right. -/
theorem exec_work (c : Instr) (s t : State) (h : exec c s = .next t) : WorkMove s t := by
  cases c with
  | transition n => cases h; exact raiseRequest_work (putLane_work _ _ (Lane.seeTransition_work _ _ _))
  | edgeAccepted n =>
    simp only [exec, execEdgeAccepted] at h
    split at h
    · exact work_of_due h (raiseRequest_work (acceptEdge_work _ _ _))
    · cases h; exact .refl s
  | waitPointReached n => exact work_of_due h (setLane_work _ _ (Lane.reachWaitPoint_work _))
  | gapPointReached n =>
    simp only [exec, execGapPointReached] at h
    split at h
    · next f hf =>
      exact work_of_due h (raiseRequest_work
        (putLane_work _ _ (Lane.reachFramePoint_work _ _ _ (opened_of_openFrame hf))))
    · cases h; exact .refl s
  | markPointReached n =>
    simp only [exec, execMarkPointReached] at h
    split at h
    · next f hf =>
      exact work_of_due h (raiseRequest_work
        (putLane_work _ _ (Lane.reachFramePoint_work _ _ _ (opened_of_openFrame hf))))
    · cases h; exact .refl s
  | tlimitExpiry n =>
    simp only [exec, execTlimitExpiry] at h
    split at h
    · next f hf =>
      exact work_of_due h (raiseRequest_work
        (putLane_work _ _ (Lane.closeFrame_work _ _ _ _ (opened_of_openFrame hf)).thenFinish))
    · cases h; exact .refl s
  | mtimeoutExpiry n =>
    simp only [exec, execMtimeoutExpiry] at h
    split at h
    · next u hu =>
      cases h
      exact raiseRequest_work (putMeter_work _ _ _
        (Lane.endMeasurement_work _ _ _ _ _ _ (runs_of_timedOutUnit hu)))
    · cases h; exact .refl s
  | firstIntervalBegin n =>
    simp only [exec, execFirstIntervalBegin] at h
    split at h
    · next c hc =>
      exact work_of_due h (raiseRequest_work
        (setLane_work _ _ (Lane.firstInterval_work _ _ _ (by simp [hc]))))
    · cases h; exact .refl s
  | intervalEnd n =>
    simp only [exec, execIntervalEnd] at h
    split at h
    · next c hc =>
      exact work_of_due h (raiseRequest_work
        (setLane_work _ _ (Lane.endPlaying_work _ _ _ (by simp [hc]))))
    · cases h; exact .refl s
  | trailingGapEnd n =>
    simp only [exec, execTrailingGapEnd] at h
    split at h
    · next c hc =>
      exact work_of_due h (raiseRequest_work
        (setLane_work _ _ (Lane.endTrail_work _ _ _ (by simp [hc]))))
    · cases h; exact .refl s
  | carrierPhase n =>
    simp only [exec, execCarrierPhase] at h
    split at h
    · next c hc => exact work_of_due h (setLane_work _ _ (Lane.setCurrent_work _ _ _ (by simp [hc])))
    · cases h; exact .refl s
  | deviceReset => cases h; exact deviceReset_work s
  | baseTick => exact work_of_due h ((tick_work _).after (aged_work s _))
  | holdoffExpiry => exact work_of_due h (work_of_eq rfl rfl)
  | busGrant => cases h; exact grant_work s
  | wordAck data => cases h; exact acknowledge_work s data
  | fetchComplete data =>
    simp only [exec, execFetchComplete] at h
    split at h
    · exact work_of_due h (acknowledge_work s data)
    · cases h; exact .refl s
  | writeBack =>
    simp only [exec, execWriteBack] at h
    split at h
    · exact work_of_due h (acknowledge_work s 0)
    · cases h; exact .refl s
  | errorReply => cases h; exact failCycle_work s true
  | noResponse => exact work_of_due h (failCycle_work s false)
  | softResetComplete => exact work_of_due h (completeSoftReset_work s)
  | start n a => cases h; exact hostWrite_work s (startLane_work s n)
  | stop n a => cases h; exact hostWrite_work s (stopLane_work s n)
  | abort n a => cases h; exact hostWrite_work s (abortLane_work s n)
  | skip n a => cases h; exact hostWrite_work s (setLane_work _ _ (Lane.skip_work _ _))
  | flush n a =>
    cases h
    exact hostWrite_work s (raiseRequest_work (putLane_work _ _ (Lane.flush_work _)))
  | recover n a => cases h; exact hostWrite_work s (setLane_work _ _ (Lane.recover_work _))
  | reset n a => cases h; exact hostWrite_work s (resetLane_work s n _)
  | lcmdBadCommand n code a =>
    simp only [exec, execLcmdBadCommand] at h
    split at h <;> cases h
    · exact .refl s
    · exact hostWrite_work s (setLane_work _ _ (.same rfl rfl rfl rfl rfl rfl rfl .rfl le_rfl))
  | snap => cases h; exact hostWrite_work s (work_of_eq rfl rfl)
  | note => cases h; exact hostWrite_work s (work_of_eq rfl rfl)
  | softReset => cases h; exact hostWrite_work s (softReset_work s)
  | gcmdUnknown code =>
    simp only [exec, execGcmdUnknown] at h
    split at h <;> cases h
    · exact .refl s
    · exact hostWrite_work s (work_of_eq rfl rfl)
  | commit ix => cases h; exact hostWrite_work s (commitProfile_work s ix)
  | clear ix => cases h; exact hostWrite_work s (tableChanged_work s ix .empty)
  | load ix => cases h; exact hostWrite_work s (work_of_eq rfl rfl)
  | pcmdBadCommand code ix =>
    simp only [exec, execPcmdBadCommand] at h
    split at h <;> cases h
    · exact .refl s
    · exact hostWrite_work s (work_of_eq rfl rfl)
  | controlWrite w => cases h; exact hostWrite_work s (writeControl_work s w)
  | prescWrite w => cases h; exact hostWrite_work s (writePresc_work s w)
  | resplimWrite w => cases h; exact hostWrite_work s (writeResplim_work s w)
  | irqctlWrite w => cases h; exact hostWrite_work s (writeIrqctl_work s w)
  | irqholdWrite w => cases h; exact hostWrite_work s (work_of_eq rfl rfl)
  | evqpop w => cases h; exact hostWrite_work s (work_of_eq rfl rfl)
  | fclr w => cases h; exact hostWrite_work s (work_of_eq rfl rfl)
  | postedWrite n w => cases h; exact hostWrite_work s (writePostedReg_work s n w)
  | rbaseWrite n high w => cases h; exact hostWrite_work s (ringWrite_work s n _)
  | rsizeWrite n w => cases h; exact hostWrite_work s (ringWrite_work s n _)
  | lcfgWrite n w =>
    cases h
    exact hostWrite_work s
      (lockedWrite_work s n _ (fun _ => rfl) (fun _ => rfl) (fun _ => rfl) fun _ => rfl)
  | registerWrite size offset w =>
    cases size <;> cases h
    · exact .refl s
    · exact hostWrite_work s (writeWindow_work s offset w)

theorem step_work (s t : State) (h : step s = .next t) : WorkMove s t := by
  obtain ⟨c, rest, h⟩ | rfl := step_cases s t h
  · exact (exec_work c { s with pending := rest } t h).after (work_of_eq rfl rfl)
  · exact coreClock_work s

/-- Settles O58: a number is taken by a frame or a result, whose record carries what was lost before it, and no
other step touches the numbers of the records. -/
theorem recordsStayNumbered : Obligations.RecordsStayNumbered :=
  keptByStep_of_next fun s t held h =>
    have work := fun m => (held m).1
    have moved := step_work s t h
    fun m => ⟨moved.work work m, moved.records work (fun m => (held m).2) m⟩

/-- Settles O59: an entry is put into a FIFO only where room for it was reserved, by the check of two free
entries in a frame and by the FILL's request in a replay. -/
theorem fifosStayBounded : Obligations.FifosStayBounded :=
  keptByStep_of_next fun s t ⟨held, room⟩ h =>
    have work := fun m => (held m).1
    have moved := step_work s t h
    ⟨fun m => ⟨moved.work work m, moved.fifo work room (fun m => (held m).2) m⟩, moved.fill work room⟩

end Sys2Proof.Laws
end

section
/-! SUPPORT. The frame assembler: what a close fixes (O28), how a frame starts (O29), and what becomes of an
interval (O30). -/

namespace Sys2Proof.Laws

open Sys2Proof.Machine Sys2Proof.Safety

/-! ## The close of a frame (R30, R31) -/

section
variable (l : Lane) (table : Eight Profile) (f : Frame) (why : Close)

/-- The decode result a close with this reason fixes: a GAP close alone judges the matchers (R61). -/
abbrev closeResult : Option DecodeResult := if why = .gap then gapResult table l.matchers else none

theorem closeFrame_cstate : (l.closeFrame table f why).cap.cstate = why.nextState := by
  obtain ⟨_, ⟨_, h⟩ | ⟨_, _, h⟩⟩ := l.closeFrame_cases table f why <;> rw [h]
  rfl

variable {f} in
theorem closeFrame_unkept (h : f.disp ≠ .kept) :
    (l.closeFrame table f why).cap.records = l.cap.records
      ∧ (l.closeFrame table f why).fifo = l.fifo ∧ (l.closeFrame table f why).matchers = l.matchers := by
  obtain ⟨_, ⟨_, k⟩ | ⟨hd, _, _⟩⟩ := l.closeFrame_cases table f why
  · rw [k]; exact ⟨rfl, rfl, rfl⟩
  · exact absurd hd h

variable {f} in
/-- The close of a kept frame, before the end markers at the head are taken (R31). -/
theorem closeFrame_kept (h : f.disp = .kept) :
    ((l.closeFrame table f why).fifo, (l.closeFrame table f why).cap.records)
      = dropMarkers (l.fifo ++ [.endMarker])
          (mapNewestRecord (fun r => r.closeWith f why (closeResult l table why)) l.cap.records)
    ∧ (l.closeFrame table f why).matchers = .fill .off := by
  unfold Lane.closeFrame
  rw [if_pos h]
  exact ⟨rfl, rfl⟩

variable {f} in
/-- A close with any reason but GAP judges no matcher: what they hold does not matter to it. -/
theorem closeFrame_matchers (ms : Eight Matcher) (h : f.disp = .kept) (hw : why ≠ .gap) :
    ({ l with matchers := ms } : Lane).closeFrame table f why = l.closeFrame table f why := by
  unfold Lane.closeFrame
  simp only [if_pos h, if_neg hw]

end

/-- A drain that no older record waits for is completed by the newest (R39). -/
theorem completeDrain_concat {older : List Record} {r : Record} (done : ∀ q ∈ older, q.step ≠ .drain)
    (h : r.step = .drain) : completeDrain (older ++ [r]) = older ++ [r.drainComplete] := by
  induction older with
  | nil => simp [completeDrain, h]
  | cons q older ih =>
    obtain ⟨hq, rest⟩ := List.forall_mem_cons.mp done
    rw [List.cons_append, completeDrain, if_neg hq, ih rest, List.cons_append]

/-- The newest record once its kept frame has closed: markers that come to the head change records' steps
alone. -/
theorem closeFrame_newest (l : Lane) (table : Eight Profile) {f : Frame} (why : Close) {r : Record}
    (hr : l.cap.records.getLast? = some r) (h : f.disp = .kept) :
    ∃ q, (l.closeFrame table f why).cap.records.getLast? = some q ∧ q.total = f.total ∧ q.seq = r.seq
      ∧ q.close = some why := by
  obtain ⟨older, hl⟩ := List.getLast?_eq_some_iff.mp hr
  obtain ⟨kept, _⟩ := closeFrame_kept l table why h
  have records := dropMarkers_map (fun q : Record => (q.total, q.seq, q.close)) (fun _ => rfl)
    (l.fifo ++ [.endMarker]) (mapNewestRecord (fun r => r.closeWith f why (closeResult l table why))
      l.cap.records)
  rw [← kept, hl, mapNewestRecord_concat] at records
  have newest := congrArg List.getLast? records
  rw [List.getLast?_map, List.getLast?_map, List.getLast?_concat] at newest
  obtain ⟨q, hq, same⟩ := Option.map_eq_some_iff.mp newest
  simp only [Prod.mk.injEq] at same
  exact ⟨q, hq, same⟩

/-! ## The header's flags and the decode result (R61, R184) -/

/-- Word 0 of a record of `kind` that ended with `why`, with its two flags at bits 8 and 9 (R184). -/
abbrev recordHead (kind : Word) (why : Close) (a b : Bool) : Word :=
  kind ||| (why.code <<< 4) ||| flagAt 8 a ||| flagAt 9 b

theorem recordHead_fields {kind : Word} (hk : kind = 1 ∨ kind = 2) (why : Close) (a b : Bool) :
    (recordHead kind why a b).extractLsb' 0 4 = kind.extractLsb' 0 4
      ∧ (recordHead kind why a b).extractLsb' 4 4 = closeNumber why
      ∧ (recordHead kind why a b).getLsbD 8 = a ∧ (recordHead kind why a b).getLsbD 9 = b
      ∧ (recordHead kind why a b).extractLsb' 10 6 = 0 := by
  obtain rfl | rfl := hk <;> cases why <;> revert a b <;> decide

theorem headerWord_head {r : Record} {why : Close} (h : r.close = some why) :
    r.headerWord 0 = recordHead 1 why (decide (r.stored < r.total)) r.decoded.isSome := by
  unfold Record.headerWord
  rw [h]
  rfl

theorem gapResult_eq_none (table : Eight Profile) (ms : Eight Matcher) :
    gapResult table ms = none ↔ ∀ i, (ms.get i).outcome (table.get i).fields i = none := by
  simp only [gapResult, List.findSome?_eq_none_iff, Eight.mem_numbers, true_implies]

/-- The numbers below `i` stand before it (R61). -/
theorem numbers_split : ∀ i : Fin 8,
    Eight.numbers = Eight.numbers.take i ++ i :: Eight.numbers.drop (i + 1)
      ∧ ∀ j ∈ Eight.numbers.take i, j < i := by decide

/-- The lowest-numbered matcher that succeeds gives the result (R61). -/
theorem gapResult_eq_first (table : Eight Profile) (ms : Eight Matcher) (i : ProfileIx)
    (lower : ∀ j, j < i → (ms.get j).outcome (table.get j).fields j = none)
    (h : (ms.get i).outcome (table.get i).fields i ≠ none) :
    gapResult table ms = (ms.get i).outcome (table.get i).fields i := by
  obtain ⟨split, below⟩ := numbers_split i
  have before : (Eight.numbers.take i).findSome?
      (fun j => (ms.get j).outcome (table.get j).fields j) = none :=
    List.findSome?_eq_none_iff.mpr fun j hj => lower j (below j hj)
  obtain ⟨d, hd⟩ := Option.ne_none_iff_exists'.mp h
  rw [gapResult, split, List.findSome?_append, before, Option.none_or, List.findSome?_cons, hd]

theorem capacity_of_newest {l : Lane} {r : Record} (h : l.cap.records.getLast? = some r) :
    l.capacity = r.capacity := by
  simp only [Lane.capacity, h]

/-- A STUCK close of a kept frame counts the mark, and stores it where there is capacity and room (R33). -/
theorem closeStuck_kept (l : Lane) (table : Eight Profile) {f : Frame} (h : f.disp = .kept) :
    l.closeStuck table f
      = if f.stored < l.capacity ∧ fifoRoom l.fifo then
          { l with fifo := l.fifo ++ [FifoEntry.interval l.regs.maxmark] }.closeFrame table
            { f with total := f.total + 1, stored := f.stored + 1 } .stuck
        else l.closeFrame table { f with total := f.total + 1 } .stuck := by
  unfold Lane.closeStuck
  dsimp only
  rw [if_pos h]
  split
  · exact closeFrame_matchers { l with fifo := l.fifo ++ [FifoEntry.interval l.regs.maxmark] } table
      (f := { f with total := f.total + 1, stored := f.stored + 1 }) .stuck _ h nofun
  · exact closeFrame_matchers l table (f := { f with total := f.total + 1 }) .stuck _ h nofun

/-- Settles O28: the record and the FIFO of a kept frame are what the taking of end markers leaves of the closed
record and of the marker put behind. -/
theorem closeFixesRecord : Obligations.CloseFixesRecord := by
  refine ⟨fun l table f why => ?_, fun r why hw => ?_,
    fun table ms => ⟨gapResult_eq_none table ms, gapResult_eq_first table ms⟩, fun l table f => ?_⟩
  · refine ⟨(closeFrame_records l table f why).1, ?_, l.closeFrame_eq table f why,
      closeFrame_unkept l table why, fun h i => ?_, fun older r hl h => ?_⟩
    · rw [closeFrame_cstate]; cases why <;> rfl
    · rw [(closeFrame_kept l table why h).2, Eight.get_fill]
      rfl
    · obtain ⟨kept, _⟩ := closeFrame_kept l table why h
      rw [hl, mapNewestRecord_concat] at kept
      refine ⟨fun v rest hf => ?_, fun hf done hs => ?_⟩
      · rw [hf] at kept
        obtain ⟨fifo, records⟩ := Prod.mk.inj kept
        exact ⟨hf ▸ fifo, records⟩
      · rw [hf] at kept
        obtain ⟨fifo, records⟩ := Prod.mk.inj kept
        exact ⟨fifo, records.trans (completeDrain_concat done hs)⟩
  · obtain ⟨_, code, truncated, decoded, _⟩ :=
      recordHead_fields (.inl rfl) why (decide (r.stored < r.total)) r.decoded.isSome
    rw [headerWord_head hw]
    exact ⟨code, truncated, decoded⟩
  · refine ⟨fun h => ?_, fun r hr h => ?_⟩
    · unfold Lane.closeStuck
      exact if_neg h
    · rw [closeStuck_kept l table h, capacity_of_newest hr]
      refine ⟨fun stored room => if_pos ⟨stored, room⟩, fun full => if_neg fun ⟨stored, room⟩ => ?_⟩
      have room : l.fifo.length + 2 ≤ 32 := room
      omega

/-! ## The start of a frame (R21 to R25) -/

/-- The assembler once a frame has begun with disposition `d` (R22). -/
abbrev frameBegun (l : Lane) (e : EdgeStamp) (d : Disposition) : Assembler :=
  { l.cap with cstate := .inFrame, waiting := false, frame := some (Frame.begin e l.seq d) }

/-- Neither an open record nor a FIFO entry is free for a frame (R23). -/
abbrev noSlotFree (l : Lane) : Prop := 2 ≤ l.cap.records.length ∨ Config.fifoDepth ≤ l.fifo.length

section
variable {l : Lane} (table : Eight Profile) (e : EdgeStamp)

theorem beginFrame_skipped (h : 0 < l.skipCount) : l.beginFrame table e = { l with
    seq := l.seq + 1, dropped := l.dropped + 1, dropWhy := .skipped, skipCount := l.skipCount - 1
    cap := frameBegun l e .skipped }.quiet := if_pos h

theorem beginFrame_noSlot (h : l.skipCount = 0) (full : noSlotFree l) :
    l.beginFrame table e = { l with
      seq := l.seq + 1, dropped := l.dropped + 1, dropWhy := .noSlot, skipCount := 0
      cap := frameBegun l e .dropped }.quiet := by
  unfold Lane.beginFrame
  dsimp only
  rw [if_neg (by omega), if_pos full, ← h]

theorem beginFrame_unbound {ring : Ring} (h : l.skipCount = 0) (free : ¬ noSlotFree l)
    (hb : l.ring.bind l.regs.captureMinimum = (none, ring)) :
    l.beginFrame table e = { l with
      seq := l.seq + 1, dropped := l.dropped + 1, dropWhy := .noBuffer, skipCount := 0, ring := ring
      cap := frameBegun l e .dropped }.reportDry := by
  unfold Lane.beginFrame
  dsimp only
  rw [if_neg (by omega), if_neg free, hb, ← h]

theorem beginFrame_bound {d : Desc} {ring : Ring} (h : l.skipCount = 0) (free : ¬ noSlotFree l)
    (hb : l.ring.bind l.regs.captureMinimum = (some d, ring)) :
    l.beginFrame table e = { l with
      seq := l.seq + 1, dropped := 0, ring := ring, matchers := startMatchers table l.regs.pmask
      cap := { frameBegun l e .kept with records := l.cap.records ++
        [Record.open d (l.regs.captureCapacity d.length) l.seq l.dropped e.base] } }.requestFetch.quiet := by
  unfold Lane.beginFrame
  dsimp only
  rw [if_neg (by omega), if_neg free, hb]

end

theorem startMatchers_get (table : Eight Profile) (pmask : BitVec 8) (i : ProfileIx) :
    (startMatchers table pmask).get i
      = if pmask.getLsbD i.val = false then ⟨.off, 0, 0, 0⟩
        else if (table.get i).valid = false then ⟨.dead, 0, 0, 0⟩
        else if (table.get i).fields.hasLead = true then ⟨.expectLeadMark, 0, 0, 0⟩
        else ⟨.expectMark, 0, 0, 0⟩ := by
  rw [startMatchers, Eight.get_mapIdx]
  unfold Profile.startMatcher
  cases pmask.getLsbD i.val with
  | false => rfl
  | true => cases (table.get i).valid <;> cases (table.get i).fields.hasLead <;> rfl

/-- A buffer that reaches the minimum holds an interval (R24, R25). -/
theorem captureCapacity_pos {r : LaneRegs} {d : Desc} (h : d.fits r.captureMinimum) :
    1 ≤ r.captureCapacity d.length := by
  obtain ⟨_, long⟩ := h
  simp only [LaneRegs.captureMinimum, LaneRegs.captureCapacity, Config.headerWords, Config.decodeWords]
    at long ⊢
  split at long <;> split <;> omega

/-- Settles O29: the frame's disposition is the first of the rule's order that applies, and an engine that
finds no spare reports a dry ring. -/
theorem frameStartDisposition : Obligations.FrameStartDisposition := by
  intro l table e
  refine ⟨fun h => ?_, fun h full => ?_, fun h free unheld => ?_, fun d hd h free bad => ?_,
    fun d hd h free even long => ?_⟩
  · rw [beginFrame_skipped table e h]
    exact ⟨rfl, rfl⟩
  · rw [beginFrame_noSlot table e h full]
    exact ⟨rfl, rfl⟩
  · rw [beginFrame_unbound table e h free (bind_no_spare _ unheld), reportDry_eq]
    exact ⟨rfl, rfl⟩
  · have unfit : ¬ d.fits l.regs.captureMinimum := (not_fits_iff d _).mpr bad
    rw [beginFrame_unbound table e h free (bind_unfit hd unfit), reportDry_eq]
    exact ⟨rfl, rfl⟩
  · have fits : d.fits l.regs.captureMinimum := ⟨even, long⟩
    rw [beginFrame_bound table e h free (bind_fits hd fits), requestFetch_of_empty _ rfl]
    refine ⟨rfl, startMatchers_get table _,
      Record.open d (l.regs.captureCapacity d.length) l.seq l.dropped e.base, ?_, rfl, rfl, rfl, rfl, rfl,
      rfl, rfl, rfl, rfl, captureCapacity_pos fits⟩
    rw [ite_and]
    rfl

/-! ## The end of an interval (R27, R28) -/

section
variable {l : Lane} (table : Eight Profile) (active : Bool) (e : EdgeStamp) {f : Frame}

/-- The value of the interval that ends at `e`, kept as a word (log 18). -/
abbrev intervalValue (l : Lane) (e : EdgeStamp) (f : Frame) : Word :=
  BitVec.ofNat 16 (tickDiff l.regs.div e.tick f.intervalStart)

/-- The frame once the interval that ends at `e` is counted. -/
abbrev counted (active : Bool) (e : EdgeStamp) (f : Frame) : Frame :=
  { f with intervalStart := e.tick, inMark := active, total := f.total + 1 }

theorem endInterval_stored (kept : f.disp = .kept) (stored : f.stored < l.capacity) (room : fifoRoom l.fifo) :
    l.endInterval table active e f
      = Lane.checkFull { l with
          matchers := feedMatchers table (intervalValue l e f) l.matchers
          fifo := l.fifo ++ [FifoEntry.interval (intervalValue l e f)] } table
        { counted active e f with stored := f.stored + 1 } := by
  unfold Lane.endInterval
  dsimp only
  rw [if_pos kept, if_pos stored, if_pos room]

theorem endInterval_refused (kept : f.disp = .kept) (full : l.capacity ≤ f.stored) :
    l.endInterval table active e f
      = Lane.checkFull { l with matchers := feedMatchers table (intervalValue l e f) l.matchers } table
          (counted active e f) := by
  unfold Lane.endInterval
  dsimp only
  rw [if_pos kept, if_neg (not_lt.mpr full)]

theorem endInterval_overrun (kept : f.disp = .kept) (stored : f.stored < l.capacity)
    (tight : ¬ fifoRoom l.fifo) :
    l.endInterval table active e f = l.closeFrame table (counted active e f) .overrun := by
  unfold Lane.endInterval
  dsimp only
  rw [if_pos kept, if_pos stored, if_neg tight]

theorem endInterval_lost (unkept : f.disp ≠ .kept) :
    l.endInterval table active e f = l.checkFull table (counted active e f) := by
  unfold Lane.endInterval
  exact if_neg unkept

theorem checkFull_open (h : f.total ≠ l.regs.maxiv.toNat) :
    l.checkFull table f = { l with cap := { l.cap with frame := some f } } := if_neg h

theorem checkFull_full (h : f.total = l.regs.maxiv.toNat) :
    l.checkFull table f = l.closeFrame table f .full := if_pos h

theorem feedMatchers_get (table : Eight Profile) (v : Word) (ms : Eight Matcher) (i : ProfileIx) :
    (feedMatchers table v ms).get i = (ms.get i).step (table.get i).fields v := Eight.get_mapIdx _ _ _

end

/-- Lane `m`, whose frame closes with the reason `why`, as its newest record `r` tells it. -/
theorem closeFrame_ends (m : Lane) (table : Eight Profile) {g : Frame} (why : Close) {total : Nat}
    {records : List Record} {kept : Prop} {reason : Record → Option Close} (hw : why.nextState = .holdoff)
    (ht : g.total = total)
    (h : ∀ r, records.getLast? = some r →
      m.cap.records.getLast? = some r ∧ g.disp = .kept ∧ reason r = some why) :
    (m.closeFrame table g why).cap.frame = none ∧ (m.closeFrame table g why).cap.cstate = .holdoff
      ∧ ∀ r, records.getLast? = some r → kept →
        ∃ q, (m.closeFrame table g why).cap.records.getLast? = some q ∧ q.total = total ∧ q.seq = r.seq
          ∧ q.close = reason r := by
  refine ⟨(closeFrame_records m table g why).1, (closeFrame_cstate m table g why).trans hw,
    fun r hr _ => ?_⟩
  obtain ⟨newest, disp, close⟩ := h r hr
  rw [close, ← ht]
  exact closeFrame_newest m table why newest disp

/-- Settles O30: the interval is stored, refused or ends the frame by the record's capacity and the FIFO's room,
and the count that reaches MAXIV ends the frame in any case. -/
theorem intervalStoredOrCloses : Obligations.IntervalStoredOrCloses := by
  refine ⟨fun l table active e f r kept hr short => ?_,
    fun l table active e f unkept short => endInterval_unkept l table active e f unkept short,
    fun l table active e f full => ?_⟩
  · rw [← capacity_of_newest hr]
    refine ⟨fun stored room => ?_, fun refused => ?_, fun stored tight => ?_⟩
    · rw [endInterval_stored table active e kept stored room, checkFull_open table short]
      exact ⟨rfl, rfl, feedMatchers_get table _ _, rfl⟩
    · rw [endInterval_refused table active e kept refused, checkFull_open table short]
      exact ⟨rfl, rfl, rfl, feedMatchers_get table _ _⟩
    · rw [endInterval_overrun table active e kept stored (not_le.mpr tight)]
      exact ⟨(closeFrame_records _ _ _ _).1, closeFrame_cstate _ _ _ _, rfl⟩
  · by_cases kept : f.disp = .kept
    · by_cases stored : f.stored < l.capacity
      · by_cases room : fifoRoom l.fifo
        · rw [endInterval_stored table active e kept stored room, checkFull_full table full]
          refine closeFrame_ends _ table .full rfl full fun r hr => ?_
          exact ⟨hr, kept, if_neg fun ⟨_, tight⟩ => absurd room (not_le.mpr tight)⟩
        · rw [endInterval_overrun table active e kept stored room]
          refine closeFrame_ends _ table .overrun rfl full fun r hr => ?_
          exact ⟨hr, kept, if_pos ⟨capacity_of_newest hr ▸ stored, not_le.mp room⟩⟩
      · rw [endInterval_refused table active e kept (not_lt.mp stored), checkFull_full table full]
        refine closeFrame_ends _ table .full rfl full fun r hr => ?_
        exact ⟨hr, kept, if_neg fun ⟨below, _⟩ => stored (capacity_of_newest hr ▸ below)⟩
    · rw [endInterval_lost table active e kept, checkFull_full table full]
      exact ⟨(closeFrame_records _ _ _ _).1, closeFrame_cstate _ _ _ _, fun _ _ h => absurd h kept⟩

end Sys2Proof.Laws
end

section
/-! SUPPORT. What the host reads of the status registers (O13): the fields of a register as they are packed, the
status registers of a lane, and the global ones. -/

namespace Sys2Proof.Laws

open Sys2Proof.Machine Sys2Proof.Safety

/-! ## The fields of a register (R174) -/

/-- The bits from `lo` to `lo + width - 1` are none of field `f`'s. -/
abbrev apart (lo width : Nat) (f : BitField) : Prop := f.1 + f.2.1 ≤ lo ∨ lo + width ≤ f.1

section
variable {lo width : Nat}

theorem extract_packFields_skip {f : BitField} (rest : List BitField) (room : lo + width ≤ 16)
    (h : apart lo width f) :
    (packFields (f :: rest)).extractLsb' lo width = (packFields rest).extractLsb' lo width := by
  obtain ⟨flo, fwidth, v⟩ := f
  refine BitVec.eq_of_getLsbD_eq fun i hi => ?_
  have other : ¬ (flo ≤ lo + i ∧ lo + i < flo + fwidth) := by
    simp only [apart] at h
    omega
  rw [BitVec.getLsbD_extractLsb', BitVec.getLsbD_extractLsb',
    getLsbD_packFields flo fwidth v rest (lo + i) (by omega), decide_eq_false other]
  simp

/-- Bits that no field names read 0. -/
theorem extract_packFields_none {fields : List BitField} (room : lo + width ≤ 16)
    (h : ∀ f ∈ fields, apart lo width f) : (packFields fields).extractLsb' lo width = 0 := by
  induction fields with
  | nil => simp [packFields]
  | cons f rest ih =>
    obtain ⟨first, others⟩ := List.forall_mem_cons.mp h
    rw [extract_packFields_skip rest room first, ih others]

/-- A field reads as its value, cut to its width. -/
theorem extract_packFields_self (v : Nat) {rest : List BitField} (room : lo + width ≤ 16)
    (h : ∀ f ∈ rest, apart lo width f) :
    (packFields ((lo, width, v) :: rest)).extractLsb' lo width = BitVec.ofNat width v := by
  refine BitVec.eq_of_getLsbD_eq fun i hi => ?_
  have others := congrArg (BitVec.getLsbD · i) (extract_packFields_none room h)
  simp only [BitVec.getLsbD_extractLsb', hi, decide_true, Bool.true_and] at others
  rw [BitVec.getLsbD_extractLsb', getLsbD_packFields lo width v rest (lo + i) (by omega), others,
    BitVec.getLsbD_ofNat]
  simp [hi]

/-- A flag reads as itself. -/
theorem getLsbD_flag {w : Word} {i : Nat} {b : Bool} (h : w.extractLsb' i 1 = BitVec.ofNat 1 (bit b)) :
    w.getLsbD i = b := by
  have first := congrArg (BitVec.getLsbD · 0) h
  simp only [BitVec.getLsbD_extractLsb', Nat.add_zero] at first
  rw [show w.getLsbD i = (decide (0 < 1) && w.getLsbD i) by simp, first]
  cases b <;> rfl

end

/-! ## The status registers of a lane -/

section
variable (s : State) (n : LaneId)

theorem read_lane {r : Nat} {w : Word} (h : s.readLaneReg n r = w) (hr : r < 0x40 := by decide)
    (even : r % 2 = 0 := by decide) : s.readWindow (laneOffset n r) = w :=
  (readWindow_lane s n hr even).trans h

end

theorem lstat_fields (l : Lane) :
    l.lstat.extractLsb' 0 3 = BitVec.ofNat 3 l.life.code
    ∧ l.lstat.extractLsb' 3 2 = BitVec.ofNat 2 l.life.endingCode
    ∧ l.lstat.extractLsb' 5 2 = BitVec.ofNat 2 l.life.causeCode
    ∧ l.lstat.getLsbD 7 = l.writeIgnored ∧ l.lstat.extractLsb' 8 8 = 0 := by
  unfold Lane.lstat
  refine ⟨?_, ?_, ?_, getLsbD_flag ?_, ?_⟩ <;>
    simp (disch := simp [apart]) only [extract_packFields_skip, extract_packFields_self,
      extract_packFields_none]

theorem lcapst_fields (l : Lane) :
    l.lcapst.extractLsb' 0 3 = BitVec.ofNat 3 l.cap.cstate.code
    ∧ l.lcapst.extractLsb' 4 2 = BitVec.ofNat 2 l.cap.records.length
    ∧ l.lcapst.extractLsb' 6 10 = BitVec.ofNat 10 l.skipCount := by
  unfold Lane.lcapst
  refine ⟨?_, ?_, ?_⟩ <;> simp (disch := simp [apart]) only [extract_packFields_skip, extract_packFields_self]

theorem lmst_free {s : State} {n : LaneId} (h : s.meters.heldBy n = none) :
    s.lmst n = packFields [(4, 1, bit (s.lane n).result.isSome)] := by
  simp only [State.lmst, h]

theorem lmst_held {s : State} {n : LaneId} {u : UnitId} (h : s.meters.heldBy n = some u) :
    s.lmst n = packFields [(0, 2, u.val + 1), (2, 2, (s.meters.get u).state.code),
      (4, 1, bit (s.lane n).result.isSome),
      (6, 10, if (s.meters.get u).state = .result then 0 else (s.meters.get u).items)] := by
  simp only [State.lmst, h]

theorem lmst_result (s : State) (n : LaneId) : (s.lmst n).getLsbD 4 = (s.lane n).result.isSome := by
  refine getLsbD_flag ?_
  cases h : s.meters.heldBy n with
  | none => rw [lmst_free h]; simp (disch := simp [apart]) only [extract_packFields_self]
  | some u =>
    rw [lmst_held h]
    simp (disch := simp [apart]) only [extract_packFields_skip, extract_packFields_self]

theorem lrpst_fields (l : Lane) :
    l.lrpst.extractLsb' 0 3 = BitVec.ofNat 3 l.rep.rstate.code
    ∧ l.lrpst.getLsbD 5 = l.rep.finished.isSome
    ∧ l.lrpst.extractLsb' 3 2 = BitVec.ofNat 2 (rkindCode l.rep.shownKind)
    ∧ l.lrpst.extractLsb' 6 9 = BitVec.ofNat 9 l.rep.shownPasses := by
  unfold Lane.lrpst
  refine ⟨?_, getLsbD_flag ?_, ?_, ?_⟩ <;>
    simp (disch := simp [apart]) only [extract_packFields_skip, extract_packFields_self]

theorem lrstat_fields (r : Ring) :
    r.lrstat.extractLsb' 0 2 = BitVec.ofNat 2 r.slot.code
    ∧ r.lrstat.extractLsb' 8 8 = BitVec.ofNat 8 r.slot.index
    ∧ r.lrstat.extractLsb' 2 2 = BitVec.ofNat 2 (returnCode r.ret)
    ∧ r.lrstat.getLsbD 4 = r.ringEmpty ∧ r.lrstat.getLsbD 5 = r.postRefused := by
  unfold Ring.lrstat
  refine ⟨?_, ?_, ?_, getLsbD_flag ?_, getLsbD_flag ?_⟩ <;>
    simp (disch := simp [apart]) only [extract_packFields_skip, extract_packFields_self]

/-! ## The global status registers -/

theorem status_fields (c : Control) :
    c.status.getLsbD 0 = c.resetPending ∧ c.status.getLsbD 1 = c.refused
    ∧ c.status.extractLsb' 2 14 = 0 := by
  unfold Control.status
  refine ⟨getLsbD_flag ?_, getLsbD_flag ?_, ?_⟩ <;>
    simp (disch := simp [apart]) only [extract_packFields_skip, extract_packFields_self,
      extract_packFields_none]

/-- What a unit shows in MPOOL: whether it is claimed, and by which lane; for a free unit the lane is log 14's
free value. -/
theorem mpoolFields_eq (m : MeterUnit) (lo : Nat) (u : BitVec 1) :
    ∃ lane, m.mpoolFields lo u = [(lo, 1, bit m.claim.isSome), (lo + 1, 3, lane)]
      ∧ ∀ n, m.claim = some n → lane = n.val := by
  unfold MeterUnit.mpoolFields
  cases m.claim with
  | none => exact ⟨_, rfl, nofun⟩
  | some n => exact ⟨n.val, rfl, fun _ h => by rw [Option.some.inj h]⟩

theorem toNat_eight (n : Fin 8) : (BitVec.ofNat 3 n.val).toNat = n.val := by
  rw [BitVec.toNat_ofNat]
  exact Nat.mod_eq_of_lt n.isLt

theorem mpool_fields (p : MeterPool) :
    let w := packFields (p.meter0.mpoolFields 0 0 ++ p.meter1.mpoolFields 8 1)
    w.getLsbD 0 = p.meter0.claim.isSome ∧ w.getLsbD 8 = p.meter1.claim.isSome
    ∧ (∀ n, p.meter0.claim = some n → (w.extractLsb' 1 3).toNat = n.val)
    ∧ ∀ n, p.meter1.claim = some n → (w.extractLsb' 9 3).toNat = n.val := by
  obtain ⟨lane0, fields0, claimed0⟩ := mpoolFields_eq p.meter0 0 0
  obtain ⟨lane1, fields1, claimed1⟩ := mpoolFields_eq p.meter1 8 1
  rw [fields0, fields1]
  refine ⟨getLsbD_flag ?_, getLsbD_flag ?_, fun n h => ?_, fun n h => ?_⟩
  · simp (disch := simp [apart]) only [List.cons_append, extract_packFields_self]
  · simp (disch := simp [apart]) only [List.cons_append, List.nil_append, extract_packFields_skip,
      extract_packFields_self]
  · simp (disch := simp [apart]) only [List.cons_append, List.nil_append, extract_packFields_skip,
      extract_packFields_self, claimed0 n h, toNat_eight]
  · simp (disch := simp [apart]) only [List.cons_append, List.nil_append, extract_packFields_skip,
      extract_packFields_self, claimed1 n h, toNat_eight]

theorem bmstat_owned {m : BusMaster} {b : Burst} (h : m.bstate = .owned b) :
    m.bmstat = packFields [(0, 2, 2), (2, 3, b.purpose.code), (5, 3, b.lane.val), (8, 4, b.remaining),
      (12, 3, m.ptr.val)] := by
  simp only [BusMaster.bmstat, BusMaster.burst, h, BusState.code]

theorem bmstat_free {m : BusMaster} (h : m.burst = none) :
    m.bmstat = packFields [(0, 2, m.bstate.code), (12, 3, m.ptr.val)] := by
  simp only [BusMaster.bmstat, h]

theorem bmstat_ptr (m : BusMaster) : (m.bmstat.extractLsb' 12 3).toNat = m.ptr.val := by
  cases h : m.burst with
  | none =>
    rw [bmstat_free h]
    simp (disch := simp [apart]) only [extract_packFields_skip, extract_packFields_self, toNat_eight]
  | some b =>
    rw [bmstat_owned ((burst_eq_some m b).mp h)]
    simp (disch := simp [apart]) only [extract_packFields_skip, extract_packFields_self, toNat_eight]

/-- With no burst in progress the fields of a burst read 0 (R153). -/
theorem bmstat_state {m : BusMaster} (h : m.burst = none) :
    m.bmstat.extractLsb' 0 12 = BitVec.ofNat 12 (m.bstate.code % 4) := by
  have rest : (packFields [(12, 3, m.ptr.val)]).extractLsb' 0 12 = 0 :=
    extract_packFields_none (by decide) (by simp [apart])
  have code : m.bstate.code % 4 < 4 := Nat.mod_lt _ (by decide)
  rw [bmstat_free h, packFields, BitVec.extractLsb'_or, rest]
  refine (BitVec.or_zero ..).trans (BitVec.eq_of_toNat_eq ?_)
  simp only [BitVec.shiftLeft_zero, BitVec.extractLsb'_toNat, BitVec.toNat_ofNat]
  omega

theorem bmstat_burst {m : BusMaster} {b : Burst} (h : m.bstate = .owned b) :
    m.bmstat.extractLsb' 0 2 = 2 ∧ m.bmstat.extractLsb' 2 3 = BitVec.ofNat 3 b.purpose.code
    ∧ (m.bmstat.extractLsb' 5 3).toNat = b.lane.val
    ∧ m.bmstat.extractLsb' 8 4 = BitVec.ofNat 4 b.remaining := by
  rw [bmstat_owned h]
  refine ⟨?_, ?_, ?_, ?_⟩ <;>
    simp (disch := simp [apart]) only [extract_packFields_skip, extract_packFields_self, toNat_eight]
  rfl

theorem fstat_fields (r : FaultRecord) :
    r.fstat.getLsbD 0 = r.valid ∧ r.fstat.getLsbD 1 = r.multi ∧ r.fstat.getLsbD 2 = r.isWrite
    ∧ r.fstat.getLsbD 12 = r.errorReply ∧ (r.fstat.extractLsb' 4 3).toNat = r.lane.val
    ∧ r.fstat.extractLsb' 8 3 = BitVec.ofNat 3 r.purpose.code := by
  unfold FaultRecord.fstat
  refine ⟨getLsbD_flag ?_, getLsbD_flag ?_, getLsbD_flag ?_, getLsbD_flag ?_, ?_, ?_⟩ <;>
    simp (disch := simp [apart]) only [extract_packFields_skip, extract_packFields_self, toNat_eight]

theorem extract_zeroExtend (b : BitVec 8) :
    (b.zeroExtend 16).extractLsb' 0 8 = b ∧ (b.zeroExtend 16).extractLsb' 8 8 = 0 := by
  refine ⟨BitVec.eq_of_toNat_eq ?_, BitVec.eq_of_toNat_eq ?_⟩ <;>
    simp only [BitVec.extractLsb'_toNat, BitVec.toNat_setWidth] <;> have := b.isLt <;> simp <;> omega

theorem evq0_fields {q : EventQueue} {e : Event} {rest : List Event} (h : q.entries = e :: rest) :
    q.evq0.extractLsb' 0 4 = BitVec.ofNat 4 e.kind.code
    ∧ q.evq0.extractLsb' 8 4 = BitVec.ofNat 4 (eventLaneCode e.lane) := by
  simp only [EventQueue.evq0, h]
  refine ⟨?_, ?_⟩ <;>
    simp (disch := simp [apart]) only [extract_packFields_skip, extract_packFields_self]

theorem evqcount_fields (q : EventQueue) :
    q.evqcount.extractLsb' 0 6 = BitVec.ofNat 6 q.entries.length ∧ q.evqcount.getLsbD 8 = q.expired := by
  unfold EventQueue.evqcount
  refine ⟨?_, getLsbD_flag ?_⟩ <;>
    simp (disch := simp [apart]) only [extract_packFields_skip, extract_packFields_self]

/-- PVALID has no bit above the eight entries (R45). -/
theorem validMask_high (table : Eight Profile) : (validMask table).extractLsb' 8 8 = 0 := by
  refine BitVec.eq_of_getLsbD_eq fun i hi => ?_
  have flag (b : Bool) (k : Nat) (hk : k < 8) :
      (if b then (1 : Word) <<< k else 0).getLsbD (8 + i) = false := by
    cases b
    · simp
    · simp [BitVec.getLsbD_shiftLeft]
      omega
  rw [BitVec.getLsbD_extractLsb']
  simp only [validMask, Eight.numbers, List.foldr, BitVec.getLsbD_or]
  rw [flag _ _ (by decide), flag _ _ (by decide), flag _ _ (by decide), flag _ _ (by decide),
    flag _ _ (by decide), flag _ _ (by decide), flag _ _ (by decide), flag _ _ (by decide)]
  simp

/-! ## The statement -/

theorem lane_status_shown {s : State} {n : LaneId} {r : Nat → Word}
    (hr : ∀ q, r q = s.readWindow (laneOffset n q)) :
    r 0x22 = BitVec.ofNat 16 (s.lane n).lresult.code ∧ r 0x24 = (s.lane n).lstat ∧ r 0x26 = (s.lane n).lcapst
    ∧ r 0x2C = BitVec.ofNat 16 (s.lane n).dropWhy.code ∧ r 0x2E = s.lmst n ∧ r 0x30 = (s.lane n).lrpst
    ∧ r 0x32 = (s.lane n).ring.lrstat := by
  simp only [hr]
  exact ⟨read_lane s n rfl, read_lane s n rfl, read_lane s n rfl, read_lane s n rfl, read_lane s n rfl,
    read_lane s n rfl, read_lane s n rfl⟩

theorem lane_words_shown (s : State) (n : LaneId) :
    s.readWindow (laneOffset n 0x28) = (s.lane n).seq ∧ s.readWindow (laneOffset n 0x2A) = (s.lane n).dropped
    ∧ s.readWindow (laneOffset n 0x1E) = (s.lane n).ring.consumed
    ∧ s.readWindow (laneOffset n 0x34) = (s.lane n).ring.flcount :=
  ⟨read_lane s n rfl, read_lane s n rfl, read_lane s n rfl, read_lane s n rfl⟩

/-- The current record is shown, and the finished one until its write-back (R89, R107). -/
theorem shown_current {e : ReplayEngine} {c : ReplayRecord} (h : e.current = some c) :
    e.shownKind = c.kind ∧ e.shownPasses = c.passes := by
  simp only [ReplayEngine.shownKind, ReplayEngine.shownPasses, h, and_self]

theorem shown_finished {e : ReplayEngine} {f : FinishedRecord} (h : e.current = none)
    (hf : e.finished = some f) :
    e.shownKind = f.kind ∧ e.shownPasses = f.passes := by
  simp only [ReplayEngine.shownKind, ReplayEngine.shownPasses, h, hf, and_self]

theorem shown_none {e : ReplayEngine} (h : e.current = none) (hf : e.finished = none) :
    e.shownKind = none ∧ e.shownPasses = 0 := by
  simp only [ReplayEngine.shownKind, ReplayEngine.shownPasses, h, hf, and_self]

theorem lmst_held_fields {s : State} {n : LaneId} {u : UnitId} (h : s.meters.heldBy n = some u) :
    (s.lmst n).extractLsb' 0 2 = BitVec.ofNat 2 (u.val + 1)
    ∧ (s.lmst n).extractLsb' 2 2 = BitVec.ofNat 2 (s.meters.get u).state.code
    ∧ (s.lmst n).extractLsb' 6 10 = BitVec.ofNat 10
        (if (s.meters.get u).state = .result then 0 else (s.meters.get u).items) := by
  rw [lmst_held h]
  refine ⟨?_, ?_, ?_⟩ <;>
    simp (disch := simp [apart]) only [extract_packFields_skip, extract_packFields_self]

theorem lmst_free_fields {s : State} {n : LaneId} (h : s.meters.heldBy n = none) :
    (s.lmst n).extractLsb' 0 4 = 0 ∧ (s.lmst n).extractLsb' 6 10 = 0 := by
  rw [lmst_free h]
  refine ⟨?_, ?_⟩ <;> simp (disch := simp [apart]) only [extract_packFields_none]

theorem eventLaneCode_toNat (n : Option LaneId) :
    (BitVec.ofNat 4 (eventLaneCode n)).toNat = eventLaneCode n := by
  rw [BitVec.toNat_ofNat]
  refine Nat.mod_eq_of_lt ?_
  cases n with
  | none => decide
  | some n => exact Nat.lt_trans n.isLt (by decide)

/-- Settles O13: each register is the word its fields are packed into, and a field of it reads as its code. -/
theorem statusRegistersShowState : Obligations.StatusRegistersShowState := by
  refine ⟨fun s n => ?_, fun s => ?_⟩
  · intro l r
    obtain ⟨r22, r24, r26, r2C, r2E, r30, r32⟩ := lane_status_shown (r := r) fun _ => rfl
    obtain ⟨seq, dropped, consumed, flcount⟩ := lane_words_shown s n
    obtain ⟨life, ending, cause, ignored, stat_rest⟩ := lstat_fields (s.lane n)
    obtain ⟨cstate, records, skipped⟩ := lcapst_fields (s.lane n)
    obtain ⟨rstate, finished, kind, passes⟩ := lrpst_fields (s.lane n)
    obtain ⟨slot, index, ret, empty, refused⟩ := lrstat_fields (s.lane n).ring
    rw [r22, r24, r26, r2C, r2E, r30, r32, life, ending, cause, cstate, rstate, kind, passes, slot, index, ret]
    refine ⟨?_, ?_, ?_, ?_, ignored, stat_rest, ?_, records, skipped, seq, dropped, ?_, lmst_result s n,
      lmst_free_fields, fun u held => ?_, ?_, finished, fun c current => ?_, fun f idle waiting => ?_,
      fun idle nothing => ?_, ?_, ?_, ?_, empty, refused, consumed, flcount⟩
    · cases l.lresult <;> rfl
    · cases l.life <;> rfl
    · rcases l.life with _ | _ | (_ | _) | _ | _ <;> rfl
    · rcases l.life with _ | _ | _ | _ | (_ | _ | _) <;> rfl
    · cases l.cap.cstate <;> rfl
    · cases l.dropWhy <;> rfl
    · obtain ⟨munit, mstate, mitems⟩ := lmst_held_fields held
      refine ⟨munit.trans ?_, mstate.trans ?_, mitems.trans ?_⟩
      · fin_cases u <;> rfl
      · cases (s.meters.get u).state <;> rfl
      · split <;> rfl
    · cases l.rep.rstate <;> rfl
    · obtain ⟨shown, count⟩ := shown_current current
      rw [shown, count]
      refine ⟨?_, rfl⟩
      rcases c.kind with _ | _ | _ <;> rfl
    · obtain ⟨shown, count⟩ := shown_finished idle waiting
      rw [shown, count]
      refine ⟨?_, rfl⟩
      rcases f.kind with _ | _ | _ <;> rfl
    · obtain ⟨shown, count⟩ := shown_none idle nothing
      rw [shown, count]
      exact ⟨rfl, rfl⟩
    · cases l.ring.slot <;> rfl
    · cases l.ring.slot <;> rfl
    · rcases l.ring.ret with _ | ⟨_, _ | _⟩ <;> rfl
  · obtain ⟨pending, refused, status_rest⟩ := status_fields s.ctl
    obtain ⟨claim0, claim1, holder0, holder1⟩ := mpool_fields s.meters
    obtain ⟨valid, multi, write, reply, lane, purpose⟩ := fstat_fields s.bus.fault
    obtain ⟨count, expired⟩ := evqcount_fields s.queue
    refine ⟨pending, refused, status_rest, claim0, claim1, holder0, holder1, bmstat_ptr s.bus, fun idle => ?_,
      fun asking => ?_, fun b owned => ?_, valid, multi, write, reply, lane, purpose.trans ?_, rfl,
      (extract_zeroExtend _).1, (extract_zeroExtend _).2, fun nothing => ?_, fun e rest first => ?_, count,
      expired, ?_, fun i => getLsbD_validMask s.table i, validMask_high s.table, fun o => ?_⟩
    · exact (bmstat_state (by simp [BusMaster.burst, idle])).trans (by rw [idle]; rfl)
    · exact (bmstat_state (by simp [BusMaster.burst, asking])).trans (by rw [asking]; rfl)
    · obtain ⟨state, code, owner, words⟩ := bmstat_burst owned
      refine ⟨state, code.trans ?_, owner, words⟩
      cases b.purpose <;> rfl
    · cases s.bus.fault.purpose <;> rfl
    · have evq0 : s.queue.evq0 = 0 := by simp only [EventQueue.evq0, nothing]
      have evq1 : s.queue.evq1 = 0 := by simp only [EventQueue.evq1, nothing]
      exact ⟨evq0, evq1⟩
    · obtain ⟨kind, source⟩ := evq0_fields first
      have evq1 : s.queue.evq1 = e.value := by simp only [EventQueue.evq1, first]
      refine ⟨evq1, kind.trans ?_, (congrArg BitVec.toNat source).trans ?_⟩
      · cases e.kind <;> rfl
      · rw [eventLaneCode_toNat]
        cases e.lane <;> rfl
    · show BitVec.ofNat 16 s.presult.code = _
      cases s.presult <;> rfl
    · have half : o.getLsbD 0 = !decide (o.toNat % 2 = 0) := by
        rw [BitVec.getLsbD, Nat.testBit_zero]
        rcases Nat.mod_two_eq_zero_or_one o.toNat with even | odd
        · simp [even]
        · simp [odd]
      rw [State.readByte, half]
      by_cases even : o.toNat % 2 = 0 <;> simp [even]

end Sys2Proof.Laws
end

section
/-! SUPPORT. The words a write cycle takes from a lane (O52): a record's header and decode section, a meter
record, a write-back. -/

namespace Sys2Proof.Laws

open Sys2Proof.Machine Sys2Proof.Safety

/-! ## The words as packed (R184) -/

/-- A header's first word before the frame's close is known: its other fields are those of any header. -/
theorem openHead_fields (a b : Bool) :
    let w : Word := 1 ||| ((0 : Word) <<< 4) ||| flagAt 8 a ||| flagAt 9 b
    w.extractLsb' 0 4 = 1 ∧ w.getLsbD 8 = a ∧ w.getLsbD 9 = b ∧ w.extractLsb' 10 6 = 0 := by
  revert a b
  decide

/-- The first word of a frame record (R42, R184). -/
theorem headerWord_fields (r : Record) :
    (r.headerWord 0).extractLsb' 0 4 = 1
    ∧ (∀ why, r.close = some why → (r.headerWord 0).extractLsb' 4 4 = closeNumber why)
    ∧ (r.headerWord 0).getLsbD 8 = decide (r.stored < r.total)
    ∧ (r.headerWord 0).getLsbD 9 = r.decoded.isSome ∧ (r.headerWord 0).extractLsb' 10 6 = 0 := by
  cases close : r.close with
  | none =>
    obtain ⟨kind, truncated, decoded, rest⟩ := openHead_fields (decide (r.stored < r.total)) r.decoded.isSome
    have word : r.headerWord 0 = 1 ||| ((0 : Word) <<< 4) ||| flagAt 8 (decide (r.stored < r.total))
        ||| flagAt 9 r.decoded.isSome := by
      simp only [Record.headerWord, close]
    rw [word]
    exact ⟨kind, nofun, truncated, decoded, rest⟩
  | some why =>
    obtain ⟨kind, code, truncated, decoded, rest⟩ :=
      recordHead_fields (.inl rfl) why (decide (r.stored < r.total)) r.decoded.isSome
    rw [headerWord_head close]
    exact ⟨kind, fun _ h => by rw [code, Option.some.inj h], truncated, decoded, rest⟩

/-- A word in the high byte leaves the low byte alone. -/
theorem extract_shiftLeft_low (w : Word) {lo width : Nat} (h : lo + width ≤ 8) :
    (w <<< 8).extractLsb' lo width = 0#width := by
  refine BitVec.eq_of_getLsbD_eq fun i hi => ?_
  simp only [BitVec.getLsbD_extractLsb', BitVec.getLsbD_shiftLeft]
  simp
  omega

theorem extract_shiftLeft_high (w : Word) : (w <<< 8).extractLsb' 8 8 = w.extractLsb' 0 8 := by
  refine BitVec.eq_of_getLsbD_eq fun i hi => ?_
  have inside : 8 + i < 16 := by omega
  rw [BitVec.getLsbD_extractLsb', BitVec.getLsbD_extractLsb', BitVec.getLsbD_shiftLeft, Nat.add_sub_cancel_left]
  simp [inside]

theorem profileByte_fields (p : ProfileIx) (b : Bool) :
    let w : Word := BitVec.ofNat 16 p.val ||| flagAt 4 b
    (w.extractLsb' 0 4).toNat = p.val ∧ w.getLsbD 4 = b ∧ w.extractLsb' 5 3 = 0
    ∧ w.extractLsb' 8 8 = 0#8 := by
  revert p b
  decide

/-- The first word of a decode section (R63, R184). -/
theorem sectionWord_fields (d : DecodeResult) :
    ((d.sectionWord 0).extractLsb' 0 4).toNat = d.profile.val ∧ (d.sectionWord 0).getLsbD 4 = d.isRepeat
    ∧ (d.sectionWord 0).extractLsb' 5 3 = 0
    ∧ (d.sectionWord 0).extractLsb' 8 8 = BitVec.ofNat 8 d.bits := by
  obtain ⟨profile, again, unnamed, high⟩ := profileByte_fields d.profile d.isRepeat
  have bits : (BitVec.ofNat 16 d.bits : Word).extractLsb' 0 8 = BitVec.ofNat 8 d.bits := by
    refine BitVec.eq_of_toNat_eq ?_
    simp only [BitVec.extractLsb'_toNat, BitVec.toNat_ofNat]
    omega
  unfold DecodeResult.sectionWord
  refine ⟨?_, ?_, ?_, ?_⟩
  · rw [BitVec.extractLsb'_or, extract_shiftLeft_low _ (by decide), BitVec.or_zero, profile]
  · rw [BitVec.getLsbD_or, again]
    simp
  · rw [BitVec.extractLsb'_or, extract_shiftLeft_low _ (by decide), BitVec.or_zero, unnamed]
  · rw [BitVec.extractLsb'_or, extract_shiftLeft_high, high, BitVec.zero_or, bits]

theorem modeWord_fields (mode : BitVec 2) (unit : UnitId) :
    let w : Word := mode.zeroExtend 16 ||| (BitVec.ofNat 16 unit.val <<< 4)
    w.extractLsb' 0 2 = mode ∧ w.extractLsb' 2 2 = 0 ∧ (w.extractLsb' 4 12).toNat = unit.val := by
  revert mode unit
  decide

theorem code_eq_statusNumber (st : DescStatus) : st.code = statusNumber st := by cases st <;> rfl

theorem writeBackWord_length (length : Nat) (st : DescStatus) :
    writeBackWord length st 0 = BitVec.ofNat 16 (length % 4096) := rfl

theorem writeBackWord_owner (length : Nat) (st : DescStatus) : writeBackWord length st 1 = statusNumber st :=
  code_eq_statusNumber st

/-! ## What a write cycle takes (R154) -/

section
variable {l : Lane} (ring : Bool) (k : Nat)

theorem writeWord_header {r : Record} {rs : List Record} (hr : l.cap.records = r :: rs)
    (mode : l.regs.lmode = .capture) : l.writeWord .header ring k = r.headerWord k := by
  simp only [Lane.writeWord, mode, hr]

theorem writeWord_decode {r : Record} {rs : List Record} {d : DecodeResult} (hr : l.cap.records = r :: rs)
    (hd : r.decoded = some d) : l.writeWord .decode ring k = d.sectionWord k := by
  simp only [Lane.writeWord, hr, Record.decodeWord, hd]

theorem writeWord_meter {r : MeterResult} (hr : l.result = some r) (mode : l.regs.lmode = .meter) :
    l.writeWord .header ring k = r.word (if r.step = .header2 then 8 + k else k) := by
  simp only [Lane.writeWord, mode, hr]

theorem writeWord_drain {v : Word} {rest : List FifoEntry} (h : l.fifo = .interval v :: rest) :
    l.writeWord .drain ring k = v := by
  simp only [Lane.writeWord, h, fifoHead]

theorem writeBack_capture {r : Record} {rs : List Record} (hr : l.cap.records = r :: rs)
    (mode : l.regs.lmode = .capture) :
    l.writeWord .writeback false k = writeBackWord r.writtenLength .record k := by
  simp [Lane.writeWord, Lane.engineWriteBack, mode, hr]

theorem writeBack_meter {r : MeterResult} (hr : l.result = some r) (mode : l.regs.lmode = .meter) :
    l.writeWord .writeback false k = writeBackWord r.writtenLength .record k := by
  simp [Lane.writeWord, Lane.engineWriteBack, mode, hr]

theorem writeBack_replay {f : FinishedRecord} (hf : l.rep.finished = some f) (mode : l.regs.lmode = .replay) :
    l.writeWord .writeback false k = writeBackWord f.passes f.status k := by
  simp [Lane.writeWord, Lane.engineWriteBack, mode, hf]

theorem writeBack_return {x : Returned} (hx : l.ring.ret = some x) :
    l.writeWord .writeback true k = writeBackWord 0 x.status.status k := by
  simp [Lane.writeWord, hx]

end

/-! ## The statement -/

/-- Settles O52: the word of a cycle is the word of the record or of the write-back it stands in. -/
theorem wordsWritten : Obligations.WordsWritten := by
  intro s n ring base k
  refine ⟨fun r rs hr mode => ⟨?_, fun d hd => ?_, fun engine => ?_⟩, fun v rest => writeWord_drain ring k,
    fun r hr mode => ⟨?_, fun engine => ?_⟩, fun f hf mode engine => ?_, fun x hx back => ?_⟩
  · rintro w rfl
    simp only [State.beginCycle, writeWord_header ring k hr mode]
    refine ⟨?_, ?_, ?_, ?_, ?_, ?_, ?_, ?_⟩ <;> rintro rfl
    · exact headerWord_fields r
    all_goals rfl
  · rintro w rfl
    simp only [State.beginCycle, writeWord_decode ring k hr hd]
    refine ⟨?_, fun first last => ?_⟩
    · rintro rfl
      exact sectionWord_fields d
    · obtain ⟨j, rfl⟩ := Nat.exists_eq_add_of_le' first
      rfl
  · subst engine
    simp only [State.beginCycle, writeBack_capture k hr mode]
    refine ⟨?_, ?_⟩ <;> rintro rfl
    · rfl
    · exact writeBackWord_owner _ _
  · rintro w rfl j hj
    simp only [State.beginCycle, writeWord_meter ring k hr mode, ← hj]
    refine ⟨?_, ?_, ?_, ?_, ?_, ?_, ?_, ?_, ?_, ?_, ?_, ?_, ?_⟩ <;> intro at_j <;> subst at_j
    · exact recordHead_fields (.inr rfl) r.close r.spread r.sat
    · rfl
    · rfl
    · rfl
    · rfl
    · exact modeWord_fields r.mode r.unit
    all_goals rfl
  · subst engine
    simp only [State.beginCycle, writeBack_meter k hr mode]
    refine ⟨?_, ?_⟩ <;> rintro rfl
    · rw [writeBackWord_length, MeterResult.writtenLength]
      split <;> rfl
    · exact writeBackWord_owner _ _
  · subst engine
    simp only [State.beginCycle, writeBack_replay k hf mode]
    refine ⟨?_, ?_⟩ <;> rintro rfl
    · rfl
    · exact writeBackWord_owner _ _
  · subst back
    simp only [State.beginCycle, writeBack_return k hx]
    refine ⟨?_, ?_⟩ <;> rintro rfl
    · rfl
    · rcases x with ⟨_, _ | _⟩ <;> rfl

end Sys2Proof.Laws
end

section
/-! SUPPORT. A word acknowledged (O50, O51): what its lane takes of it, the next word cycle, and the end of the
burst. -/

namespace Sys2Proof.Laws

open Sys2Proof.Machine Sys2Proof.Safety

/-! ## The word its lane takes (R154) -/

section
variable {l : Lane} (data : Word)

theorem fetchWord_fetching {i : Nat} {g : Bool} {ws : List Word} (h : l.ring.slot = .fetching i g ws) :
    l.fetchWord data = { l with ring := { l.ring with slot := .fetching i g (ws ++ [data]) } } := by
  simp only [Lane.fetchWord, h]

theorem mapCurrent_none (f : ReplayRecord → ReplayRecord) (h : l.rep.current = none) : l.mapCurrent f = l := by
  show { l with rep := { l.rep with current := l.rep.current.map f } } = l
  rw [h, Option.map_none, ← h]

theorem fillWord_none (h : l.rep.current = none) : l.fillWord data = l := by
  simp only [Lane.fillWord, h]

/-- A FILL word enters the FIFO, and the one that reaches the threshold begins play-out (R96, R97). -/
theorem fillWord_current {c : ReplayRecord} (h : l.rep.current = some c) :
    l.fillWord data = fillTaken l c data := by
  simp only [Lane.fillWord, h, fillTaken, ReplayRecord.fillThreshold, List.length_append,
    List.length_singleton]
  split <;> rfl

theorem loadWord_none (h : l.rep.current = none) : l.loadWord data = l := mapCurrent_none _ h

theorem loadWord_current {c : ReplayRecord} (h : l.rep.current = some c) : l.loadWord data = { l with
    rep := { l.rep with current := some { c with loaded := c.loaded ++ [data] } } } := by
  simp only [Lane.loadWord, Lane.mapCurrent, h, Option.map_some]

end

/-! ## A DRAIN word (R38, R39) -/

/-- Nothing more is settled once the head of the FIFO is no end marker. -/
theorem dropMarkers_of_head {fifo : List FifoEntry} (rs : List Record) (h : fifo.head? ≠ some .endMarker) :
    dropMarkers fifo rs = (fifo, rs) := by
  rcases fifo with _ | ⟨_ | _, _⟩
  · rfl
  · rfl
  · exact absurd rfl h

theorem dropMarkers_marker (fifo : List FifoEntry) (rs : List Record) :
    dropMarkers (.endMarker :: fifo) rs = dropMarkers fifo (completeDrain rs) := rfl

theorem completeDrain_draining {r : Record} (rs : List Record) (h : r.step = .drain) :
    completeDrain (r :: rs) = r.drainComplete :: rs := if_pos h

theorem completeDrain_drained {r : Record} (rs : List Record) (h : r.step ≠ .drain) :
    completeDrain (r :: rs) = r :: completeDrain rs := if_neg h

theorem drainComplete_step_ne (r : Record) : r.drainComplete.step ≠ .drain := by
  unfold Record.drainComplete
  cases r.decoded <;> exact nofun

/-- The interval leaves the FIFO and is counted, and the end markers behind it are settled. -/
theorem drainWord_eq {l : Lane} {v : Word} {rest : List FifoEntry} {r : Record} {rs : List Record}
    (hf : l.fifo = .interval v :: rest) (hr : l.cap.records = r :: rs) :
    l.drainWord = { l with
      fifo := (dropMarkers rest ({ r with drained := r.drained + 1 } :: rs)).1
      cap := { l.cap with records := (dropMarkers rest ({ r with drained := r.drained + 1 } :: rs)).2 } } := by
  simp only [Lane.drainWord, Lane.mapOldest, hf, hr, List.tail_cons, Lane.settleMarkers]

theorem drainWord_settled {l : Lane} {v : Word} {rest fifo : List FifoEntry} {r : Record} {rs qs : List Record}
    (hf : l.fifo = .interval v :: rest) (hr : l.cap.records = r :: rs)
    (h : dropMarkers rest ({ r with drained := r.drained + 1 } :: rs) = (fifo, qs)) :
    l.drainWord = { l with fifo := fifo, cap := { l.cap with records := qs } } := by
  rw [drainWord_eq hf hr, h]

/-! ## The next word cycle (R154, R155) -/

/-- The state in which the next word cycle of burst `b` begins: its lane has the word acknowledged. -/
abbrev tookWord (s : State) (b : Burst) (data : Word) : State :=
  s.setLane b.lane ((s.lane b.lane).takeWord b.purpose data)

theorem acknowledge_next {s : State} {b : Burst} (data : Word) (hp : s.ctl.resetPending = false)
    (hb : s.bus.bstate = .owned b) (served : b.orphan = false) (more : 1 < b.remaining) :
    s.acknowledge data = (tookWord s b data).nextCycle b := by
  simp only [State.acknowledge, hb, hp, served, Bool.false_eq_true, if_false, Nat.not_le.mpr more]

/-- The address of every word cycle but a write-back's first (R154). -/
theorem cycleAddr_later (p : Purpose) (base : Addr) (k : Nat) : cycleAddr p base (k + 1)
    = if p = .writeback then base else base + BitVec.ofNat 24 (2 * (k + 1)) := by
  cases p <;> rfl

/-! ## The end of a burst (R151) -/

theorem anyRequest_free {s : State} (h : s.bus.burst = none) :
    s.anyRequest = true ↔ ∃ m, (s.lane m).request.isSome = true := by
  have unserved (m : LaneId) : s.request m = (s.lane m).request := by
    simp [State.request, BusMaster.serves, h]
  simp only [State.anyRequest, List.any_eq_true, Eight.mem_numbers, true_and, unserved]

/-- The bus released is asked for again where a lane presents a request. -/
theorem burstEnded_raise {n : LaneId} {s : State} (k : Lane) (hp : s.ctl.resetPending = false) :
    burstEnded n s (s.releaseBus.setLane n k).raiseRequest := by
  have ask := anyRequest_free (s := s.releaseBus.setLane n k) rfl
  refine ⟨shared_raise (setLane_shared s.releaseBus n k), others_raise (setLane_others s.releaseBus n k),
    State.raiseRequest_meters _, State.raiseRequest_queue _, ?_⟩
  simp only [State.raiseRequest_lane, ← ask]
  unfold State.raiseRequest
  by_cases asks : (s.releaseBus.setLane n k).anyRequest = true
  · rw [if_pos ⟨rfl, hp, asks⟩, if_pos asks]
    rfl
  · rw [if_neg fun h => asks h.2.2, if_neg asks]
    rfl

theorem acknowledge_orphan {s : State} {b : Burst} (data : Word) (hp : s.ctl.resetPending = false)
    (hb : s.bus.bstate = .owned b) (orphan : b.orphan = true) :
    s.acknowledge data = s.releaseBus.raiseRequest := by
  simp only [State.acknowledge, hb, hp, orphan, Bool.false_eq_true, if_false, if_true]

theorem exec_wordAck (data : Word) (s : State) : exec (.wordAck data) s = .next (s.acknowledge data) := rfl

/-- Settles O50: the lane takes the word and the next cycle begins, or a reset lane's burst ends. -/
theorem wordAcknowledged : Obligations.WordAcknowledged := by
  refine ⟨fun s data free => ?_, fun s b data hp hb => ?_⟩
  · obtain ⟨_, same⟩ | ⟨b, hb, _⟩ := acknowledge_cases s data
    · rw [exec_wordAck, same]
    · rw [(burst_eq_some s.bus b).mpr hb] at free
      cases free
  intro l
  refine ⟨fun served more => ?_, fun orphan => ?_⟩
  · have lane : ((tookWord s b data).nextCycle b).lane b.lane = l.takeWord b.purpose data :=
      State.lane_setLane_self s b.lane _
    have runs : exec (.wordAck data) s = .next ((tookWord s b data).nextCycle b) := by
      rw [exec_wordAck, acknowledge_next data hp hb served more]
    refine ⟨_, _, runs, rfl, rfl, ?_, rfl, rfl, setLane_shared s b.lane (l.takeWord b.purpose data),
      setLane_others s b.lane (l.takeWord b.purpose data), rfl, rfl, fun i g ws slot fetch => ?_,
      fun r current fill => ?_, fun r current load => ?_, fun purpose nothing => ?_,
      fun v w rest r rs fifo records drain => ?_, fun purpose => ?_⟩
    · exact cycleAddr_later b.purpose b.base b.done
    · rw [lane, fetch]
      exact fetchWord_fetching data slot
    · rw [lane, fill]
      exact fillWord_current data current
    · rw [lane, load]
      exact loadWord_current data current
    · obtain fill | load := purpose
      · rw [lane, fill]
        exact fillWord_none data nothing
      · rw [lane, load]
        exact loadWord_none data nothing
    · have drained : l.takeWord b.purpose data = { l with
          fifo := .interval w :: rest
          cap := { l.cap with records := { r with drained := r.drained + 1 } :: rs } } := by
        rw [drain]
        exact drainWord_settled fifo records (dropMarkers_of_head _ nofun)
      refine ⟨?_, lane.trans drained⟩
      show ((tookWord s b data).lane b.lane).writeWord b.purpose b.forRing (b.done + 1) = w
      rw [State.lane_setLane_self s b.lane, drained, drain]
      rfl
    · rw [lane]
      obtain header | decode | back := purpose
      · rw [header]; rfl
      · rw [decode]; rfl
      · rw [back]; rfl
  · have runs : exec (.wordAck data) s = .next s.releaseBus.raiseRequest := by
      rw [exec_wordAck, acknowledge_orphan data hp hb orphan]
    refine ⟨_, runs, ?_, State.raiseRequest_lanes _⟩
    have same : s.releaseBus = s.releaseBus.setLane b.lane (s.releaseBus.lane b.lane) :=
      (State.setLane_lane s.releaseBus b.lane).symm
    rw [same]
    exact burstEnded_raise _ hp

end Sys2Proof.Laws
end

section
/-! SUPPORT. The last word of a burst that is no fetch and no write-back (O51). -/

namespace Sys2Proof.Laws

open Sys2Proof.Machine Sys2Proof.Safety

/-! ## The value of a replay record (R62) -/

theorem getLsbD_valueOf (ws : List Word) {i : Nat} (h : i < 64) :
    (valueOf ws).getLsbD i = ((ws[i / 16]?).getD 0).getLsbD (i % 16) := by
  induction ws generalizing i with
  | nil => simp [valueOf]
  | cons w ws ih =>
    rw [valueOf, BitVec.getLsbD_or, BitVec.getLsbD_shiftLeft, BitVec.getLsbD_setWidth]
    by_cases first : i < 16
    · rw [Nat.div_eq_of_lt first, Nat.mod_eq_of_lt first]
      simp [first, h]
    · obtain ⟨j, rfl⟩ := Nat.exists_eq_add_of_le' (Nat.not_lt.mp first)
      rw [Nat.add_sub_cancel, ih (by omega), Nat.add_div_right j (by decide), Nat.add_mod_right,
        List.getElem?_cons_succ, BitVec.getLsbD_of_ge w _ (by omega)]
      simp [h]

/-! ## What the last word leaves of its lane (R154) -/

/-- The lane after the last word of a burst that is no fetch and no write-back. -/
def endedLane (l : Lane) (table : Eight Profile) (p : Purpose) (data : Word) : Lane :=
  match p with
  | .load => (l.loadWord data).loadDone table
  | .decode => l.mapOldest fun r => { r with step := .header }
  | .header => l.headerDone
  | _ => l.takeWord p data

theorem acknowledge_last {s : State} {b : Burst} (h : LastWord s b) (data : Word) (hf : b.purpose ≠ .fetch)
    (hw : b.purpose ≠ .writeback) : s.acknowledge data = (s.releaseBus.setLane b.lane
      (endedLane (s.lane b.lane) s.table b.purpose data)).raiseRequest := by
  have taken : wordTaken s b data
      = s.releaseBus.setLane b.lane ((s.lane b.lane).takeWord b.purpose data) := rfl
  have unread (k : Lane) : (s.releaseBus.setLane b.lane k).lane b.lane = k :=
    State.lane_setLane_self s.releaseBus b.lane k
  rw [h.acknowledge, taken, State.burstDone]
  cases hp : b.purpose with
  | fetch => exact absurd hp hf
  | writeback => exact absurd hp hw
  | drain => rfl
  | fill => rfl
  | decode => simp only [unread, State.setLane_setLane, endedLane, Lane.takeWord]
  | header => simp only [unread, State.setLane_setLane, endedLane, Lane.takeWord]
  | load =>
    simp only [unread, State.setLane_setLane, endedLane, Lane.takeWord]
    rfl

section
variable {l : Lane} {table : Eight Profile} {c : ReplayRecord}

theorem loadDone_header (hs : l.rep.rstate = .rLoad) (hc : l.rep.current = some c) (hk : c.kind = none) :
    l.loadDone table = l.checkHeader table c := by
  simp only [Lane.loadDone, hs, hc, hk]

theorem loadDone_none (h : l.rep.current = none) : l.loadDone table = l := by
  simp only [Lane.loadDone, h]
  cases l.rep.rstate <;> rfl

theorem loadDone_value (hs : l.rep.rstate = .rLoad) (hc : l.rep.current = some c) (hk : c.kind ≠ none) :
    l.loadDone table = { l with rep := { l.rep with
      rstate := .rPlay
      current := some { c with
        value := valueOf c.loaded, loaded := [], played := 0, playing := none, tickSeen := false } } } := by
  obtain ⟨k, hk⟩ := Option.ne_none_iff_exists'.mp hk
  simp only [Lane.loadDone, hs, hc, hk]
  rfl

theorem mapOldest_cons {r : Record} {rs : List Record} (f : Record → Record) (h : l.cap.records = r :: rs) :
    l.mapOldest f = { l with cap := { l.cap with records := f r :: rs } } := by
  simp only [Lane.mapOldest, h]

theorem headerDone_capture (mode : l.regs.lmode = .capture) :
    l.headerDone = l.mapOldest fun r => { r with step := .writeback } := by
  simp only [Lane.headerDone, mode]

/-- Of a meter record the second header burst follows the first (R82). -/
theorem headerDone_meter {r : MeterResult} (mode : l.regs.lmode = .meter) (h : l.result = some r) :
    l.headerDone = { l with result := some { r with
      step := if r.step = .header1 then .header2 else .writeback } } := by
  simp only [Lane.headerDone, mode, h, Option.map_some, MeterResult.advance]
  cases r.step <;> rfl

end

/-- Settles O51: the bus is released, and each purpose's last word takes its lane to the next step. -/
theorem lastWordEndsBurst : Obligations.LastWordEndsBurst := by
  intro s b data hp hb served last hf hw n l
  have runs : exec (.wordAck data) s = .next
      (s.releaseBus.setLane n (endedLane l s.table b.purpose data)).raiseRequest := by
    rw [exec_wordAck, acknowledge_last ⟨hp, hb, served, last⟩ data hf hw]
  refine ⟨_, runs, burstEnded_raise _ hp, ?_⟩
  have lane : (s.releaseBus.setLane n (endedLane l s.table b.purpose data)).raiseRequest.lane n
      = endedLane l s.table b.purpose data := by
    rw [State.raiseRequest_lane, State.lane_setLane_self]
  rw [lane]
  refine ⟨fun c current fill => ?_, fun purpose nothing => ?_, fun c current load loading => ⟨fun unread => ?_,
    fun read => ⟨valueOf (c.loaded ++ [data]), fun i hi => getLsbD_valueOf _ hi, ?_⟩⟩,
    fun v rest fifo r rs records drain => ⟨fun head => ?_, fun e more hrest marker step => ⟨fun head => ?_,
      fun e' after hmore marker' q hrs step' head => ?_⟩⟩, fun r rs records decode => ?_,
    fun r rs records header mode => ?_, fun r result header mode => ?_⟩
  · rw [fill]
    exact fillWord_current data current
  · obtain fill | load := purpose
    · rw [fill]
      exact fillWord_none data nothing
    · rw [load, endedLane, loadWord_none data nothing, loadDone_none nothing]
  · rw [load, endedLane, loadWord_current data current]
    exact loadDone_header loading rfl unread
  · rw [load, endedLane, loadWord_current data current]
    exact loadDone_value (c := { c with loaded := c.loaded ++ [data] })
      (l := { l with rep := { l.rep with current := some { c with loaded := c.loaded ++ [data] } } })
      loading rfl read
  · rw [drain]
    exact drainWord_settled fifo records (dropMarkers_of_head _ head)
  · subst hrest marker
    rw [drain]
    refine drainWord_settled fifo records ?_
    rw [dropMarkers_marker, completeDrain_draining (r := { r with drained := r.drained + 1 }) _ step,
      dropMarkers_of_head _ head]
    rfl
  · subst hrest marker hmore marker' hrs
    rw [drain]
    refine drainWord_settled fifo records ?_
    rw [dropMarkers_marker, completeDrain_draining (r := { r with drained := r.drained + 1 }) _ step,
      dropMarkers_marker, completeDrain_drained _ (drainComplete_step_ne _), completeDrain_draining _ step',
      dropMarkers_of_head _ head]
    rfl
  · rw [decode]
    exact mapOldest_cons _ records
  · rw [header, endedLane, headerDone_capture mode]
    exact mapOldest_cons _ records
  · rw [header]
    exact headerDone_meter mode result

end Sys2Proof.Laws
end
